-- ==== Sys2Proof/Word.lean ====
section
/-! DEFINITION. The words the LS24's spec counts in: octets, 16-bit and 32-bit numbers. -/

namespace Sys2Proof

/-- An octet: "eight bits, the unit of every frame field" (00 section 6). -/
abbrev Byte := BitVec 8

/-- The FCS remainder's width (R10). -/
abbrev Word16 := BitVec 16

/-- The millisecond timer's and the counters' width (R16, R151). -/
abbrev Word32 := BitVec 32

/-- A submit tag, 0..127 (R114). -/
abbrev Tag := BitVec 7

end Sys2Proof
end

