-- ==== Sys2Proof/Syntax.lean ====
section
/-! DEFINITION. The commands of the LS24: one constructor per row of spec/opcode_table.json, in the table's order.
The table gives the rows no fields; the operands here are what the line, the pins or the timer bring with the event
(INVENTORY.md, heading Instructions; log entry 10). -/

namespace Sys2Proof

/-- The eight notice kinds, lowest priority first (R176). -/
inductive NoticeKind where
  | started
  | sessionExpired
  | deliveryRefused
  | orphan
  | transitRefused
  | underrun
  | lineUp
  | lineDown
  deriving DecidableEq, Repr

/-- How a station frame ends in error (R115, R121). -/
inductive StationEnd where
  /-- A closing flag, with the data bits it finds since the last octet boundary. -/
  | flag (tail : List Bool)
  /-- The octet that completes at count 1 + 8 + declared length + 3, with the data bits settled beyond it. -/
  | excess (octet : Byte) (rest : List Bool := [])
  /-- The seventh consecutive one. -/
  | abort
  deriving DecidableEq, Repr

/-- The commands of the block, one per row of the table. -/
inductive Instr where
  /-- POWER_ON_RESET (R20, R22): the reset pin is released with these straps. -/
  | powerOnReset (group member : Byte)
  /-- LOOP_FLAG (R17): a flag is recognised; `tail` holds the data bits it finds since the last octet boundary. `times` is
  the octet times of the loop transmitter since the last command that brought some, one where nothing else is said (log
  entry 6). -/
  | loopFlag (tail : List Bool) (times : Nat := 1)
  /-- LOOP_OCTET (R5): an octet completes at the zero that settles its last bit; `rest` holds the data bits that this
  zero settles beyond it, none where it settles no more (R1); `times` as at LOOP_FLAG. -/
  | loopOctet (octet : Byte) (rest : List Bool := []) (times : Nat := 1)
  /-- LOOP_ABORT (R14): the seventh consecutive one. -/
  | loopAbort
  /-- LINE_IDLE (R1): the fifteenth consecutive one. -/
  | lineIdle
  /-- LINE_SILENCE_DEADLINE (R18). -/
  | lineSilenceDeadline
  /-- ARBITER_CHOICE (R70). -/
  | arbiterChoice
  /-- UNDERRUN (R57), after these octet times of the loop transmitter, none where nothing else is said (log entry 6). -/
  | underrun (times : Nat := 0)
  /-- FORWARD_COMPLETE (R56). -/
  | forwardComplete
  /-- INSERTION_END (R77). -/
  | insertionEnd
  /-- ABORT_COMPLETE (R61). -/
  | abortComplete
  /-- RETURN_TIMEOUT_EXPIRY (R91). -/
  | returnTimeoutExpiry
  /-- PORT_BREAK (R116, R129): the zero run reaches 32 in HUNT with these line bits, received since the line's last event;
  32 zeros where nothing else is said. -/
  | portBreak (bits : List Bool := List.replicate 32 false)
  /-- PORT_BREAK_END (R117). -/
  | portBreakEnd
  /-- STATION_FRAME_GOOD (R118): the closing flag of the GOOD frame in the receive buffer. -/
  | stationFrameGood
  /-- STATION_FRAME_DISCARD (R121). -/
  | stationFrameDiscard (how : StationEnd)
  /-- PORT_TX_CHOICE (R128). -/
  | portTxChoice
  /-- PORT_REPORT_SENT (R128). -/
  | portReportSent
  /-- PORT_TX_ABORT_COMPLETE (R127). -/
  | portTxAbortComplete
  /-- BAD_COMMAND (R137). -/
  | badCommand
  /-- STATUS (R141). -/
  | status
  /-- PARAM_READ (R143). -/
  | paramRead
  /-- PARAM_WRITE (R144). -/
  | paramWrite
  /-- LIST_READ (R146). -/
  | listRead
  /-- LIST_WRITE (R147). -/
  | listWrite
  /-- TABLE_READ (R150). -/
  | tableRead
  /-- COUNTERS_READ (R152). -/
  | countersRead
  /-- SESSION_OPEN (R162). -/
  | sessionOpen
  /-- ENTRY_INSERT (R163). -/
  | entryInsert
  /-- ENTRY_REPLACE (R164). -/
  | entryReplace
  /-- ENTRY_REMOVE (R165). -/
  | entryRemove
  /-- SESSION_COMMIT (R166). -/
  | sessionCommit
  /-- SESSION_DISCARD (R169). -/
  | sessionDiscard
  /-- NOTICE_ACK (R184). -/
  | noticeAck
  /-- RESTART (R153). -/
  | restart
  /-- SESSION_TIMEOUT_EXPIRY (R170). -/
  | sessionTimeoutExpiry
  /-- NOTICE_FIRST_SEND (R181). -/
  | noticeFirstSend
  /-- NOTICE_RETRY_DEADLINE (R183): the deadline of this kind's slot. -/
  | noticeRetryDeadline (kind : NoticeKind)
  /-- NOTICE_RESEND (R183). -/
  | noticeResend
  /-- POWER_ON_RESET_ASSERT (R63). -/
  | powerOnResetAssert
  /-- STATION_FLAG (R115): a flag that ends no frame, with the short group of bits before it. -/
  | stationFlag (tail : List Bool)
  /-- STATION_OCTET (R115): as LOOP_OCTET. -/
  | stationOctet (octet : Byte) (rest : List Bool := [])
  /-- STATION_ABORT (R115): an abort (`idle` false, seven ones) or line idle (`idle` true, fifteen ones). -/
  | stationAbort (idle : Bool)
  deriving DecidableEq, Repr

end Sys2Proof
end

