-- ==== Sys2Proof/Decode.lean ====
section
/-! DEFINITION. The decoder over the rows of spec/opcode_table.json that give bits. No row gives any ("n_rows_with_fixed": 0,
98_reader.md), so no word spells a command. How the two receive lines' bits become commands is Machine/LineCode.lean's. -/

namespace Sys2Proof

/-- The command a word spells by the table's bits: none, since every row has `fields` empty and no match or mask. -/
def decodeTableWord (_nbits _w : Nat) : Option Instr := none

end Sys2Proof
end

