-- ==== Sys2Proof/Config.lean ====
section
/-! DEFINITION. The figures the spec fixes for the part: store sizes, queue bounds, ranges.
The spec leaves no value undefined, so there is no free value here. -/

namespace Sys2Proof.Config

/-- Entries of the transit queue (R45). -/
abbrev transitEntries : Nat := 6
/-- Octets of the transit store (R45). -/
abbrev transitStore : Nat := 1280
/-- Frames of the own output queue (R66). -/
abbrev ownFrames : Nat := 6
/-- Frames of each station class queue (R68). -/
abbrev classFrames : Nat := 8
/-- Octets of the station outbound store (R68). -/
abbrev outboundStore : Nat := 3072
/-- Entries of the return log (R82). -/
abbrev logEntries : Nat := 16
/-- The completion budget (R71, R94). -/
abbrev completionBudget : Nat := 16
/-- Entries of the delivery store (R99). -/
abbrev deliveryEntries : Nat := 12
/-- Octets of the delivery store (R99). -/
abbrev deliveryStore : Nat := 2048
/-- Places of the report queue that the shared records compete for (R122). -/
abbrev sharedPlaces : Nat := 8
/-- Places of the reply slot (R126). -/
abbrev replyPlaces : Nat := 2
/-- Places of the management request queue (R133). -/
abbrev requestPlaces : Nat := 4
/-- Entries of an address table (R26). -/
abbrev tableEntries : Nat := 48
/-- The greatest valid declared length (R32, R118). -/
abbrev maxInfo : Nat := 512
/-- The zero run that starts a break (R116). -/
abbrev breakRun : Nat := 32
/-- The highest value of the fairness count (R73). -/
abbrev maxFairness : Nat := 15
/-- The highest value of the saturating octet counts (R121, R125, R177). -/
abbrev maxOctet : Nat := 255
/-- The highest value of a hit count (R29). -/
abbrev maxHits : Nat := 65535

end Sys2Proof.Config
end

