-- ==== Sys2Proof/Machine/State.lean ====
section
/-! DEFINITION. Every piece of state the spec gives the LS24, as plain data, and its value after power-on reset.
Each structure's docstring names the rule that lists its fields. -/

namespace Sys2Proof.Machine

/-! ### Addresses, headers and tallies -/

/-- An address, written group.member (00 section 7). -/
structure Address where
  group : Byte
  member : Byte
  deriving DecidableEq, Repr

/-- The tally: hops and the two marks (01 section 1.3). -/
structure Tally where
  hops : Nat
  claimed : Bool
  refused : Bool
  deriving DecidableEq, Repr

/-- A loop frame's header. The kind is an octet: a foreign kind is carried as received (R6, R192). -/
structure Header where
  da : Address
  sa : Address
  kind : Byte
  tally : Tally
  declared : Nat
  deriving DecidableEq, Repr

/-- The tally every frame the part originates carries: hops 0, both marks clear (R66, R75). -/
def Tally.fresh : Tally := ⟨0, false, false⟩

/-! ### Reception (chapter 1, 07 section 7.1) -/

/-- Why a frame ended ABORTED: seven or more ones, or the line going DOWN (R9, R14). -/
inductive AbortReason where
  | abort
  | silence
  deriving DecidableEq, Repr

/-- The conditions a frame ends with, as the frame-end event carries them (R9). -/
inductive EndCond where
  | good
  | badFcs
  | aborted (reason : AbortReason)
  | runt
  | ragged
  | length
  deriving DecidableEq, Repr

/-- What a receiver in FRAME holds of the frame (R5, R10, R115): the octet count, the FCS remainder, the octets kept
up to the end of the header, the declared length once taken, and the FCS octets kept for the check of R11. -/
structure RxFrame where
  count : Nat
  fcs : Word16
  head : List Byte
  declared : Option Nat
  check : List Byte
  deriving DecidableEq, Repr

/-- The loop receiver's state (01 section 1.2). -/
inductive RxState where
  | hunt
  | fill
  | frame (f : RxFrame)
  deriving DecidableEq, Repr

/-- The loop receiver (chapter 1, R20): state, run count of ones, octet collector. -/
structure LoopRx where
  state : RxState
  run : Nat
  collector : List Bool
  deriving DecidableEq, Repr

/-- The loop line state (R18, R19). -/
inductive LineState where
  | down
  | up
  deriving DecidableEq, Repr

/-- The line supervisor (R17, R18, R20). -/
structure Supervisor where
  line : LineState
  lastFlag : Word32
  downAt : Word32
  marker : Bool
  deriving DecidableEq, Repr

/-- The station receiver's framing state; in FRAME it also holds the info octets kept in the receive buffer (R115). -/
inductive StationRxState where
  | hunt
  | fill
  | frame (f : RxFrame) (info : List Byte)
  deriving DecidableEq, Repr

/-- The station port receiver (R115, R116, R132). -/
structure StationRx where
  state : StationRxState
  run : Nat
  zeroRun : Nat
  collector : List Bool
  deriving DecidableEq, Repr

/-! ### Classification (chapter 2) -/

/-- The mode, fixed from the straps (R22). -/
inductive Mode where
  | service
  | repeater
  deriving DecidableEq, Repr

/-- A table entry's action, and the values of DEFAULT_ACTION (R24, R142). -/
inductive Action where
  | pass
  | copy
  | drop
  deriving DecidableEq, Repr

/-- A table entry's mark policy (R24). -/
inductive Policy where
  | mark
  | quiet
  deriving DecidableEq, Repr

/-- An entry's key: group match (`none` is ANY), member low, member high (R24, R26). -/
structure Key where
  group : Option Byte
  low : Byte
  high : Byte
  deriving DecidableEq, Repr

/-- What an entry says beside its hit count or origin (R24). -/
structure Rule where
  key : Key
  action : Action
  policy : Policy
  label : Byte
  deriving DecidableEq, Repr

/-- An entry of the active table (R24). -/
structure TableEntry where
  rule : Rule
  hits : Nat
  deriving DecidableEq, Repr

/-- An entry of the staged table: an origin in place of the hit count (R160). -/
structure StagedEntry where
  rule : Rule
  origin : Option Nat
  deriving DecidableEq, Repr

/-- The verdicts (R31). -/
inductive Verdict where
  | badHeader
  | strip
  | orphan
  | manage
  | pass
  | copy
  | drop
  deriving DecidableEq, Repr

/-- The take outcome (R38). -/
inductive Take where
  | kept
  | refused
  deriving DecidableEq, Repr

/-- A mark an addressee adds to the tally (R38). -/
inductive Mark where
  | claimed
  | refused
  deriving DecidableEq, Repr

/-- The verdict record (R39). -/
structure VerdictRecord where
  verdict : Verdict
  label : Option Byte
  policy : Option Policy
  forward : Bool
  deliver : Bool
  take : Option Take
  marks : Option Mark
  deriving DecidableEq, Repr

/-! ### Transit path and transmitters (chapters 3, 4, 7) -/

/-- How the upstream frame ended: NONE (`arriving`), GOOD, BAD (R46, R100). -/
inductive EndStatus where
  | arriving
  | good
  | bad
  deriving DecidableEq, Repr

/-- Whether a copy has been begun downstream (R46). -/
inductive Sending where
  | no
  | yes
  | abandoned
  deriving DecidableEq, Repr

/-- A transit entry (R46), with the info octets it stores. -/
structure TransitEntry where
  reservation : Nat
  header : Header
  info : List Byte
  received : Nat
  released : Nat
  sent : Nat
  status : EndStatus
  sending : Sending
  deriving DecidableEq, Repr

/-- A frame the part made itself, in the own output queue (R66). -/
structure OwnFrame where
  header : Header
  info : List Byte
  deriving DecidableEq, Repr

/-- The class of a station frame (R68). -/
inductive StationClass where
  | urgent
  | normal
  deriving DecidableEq, Repr

/-- A station frame in a class queue or being inserted (R68). The tally the station gave is not kept. -/
structure StationFrame where
  tag : Tag
  cls : StationClass
  da : Address
  sa : Address
  kind : Byte
  declared : Nat
  info : List Byte
  deriving DecidableEq, Repr

/-- The frame of an insertion in progress (R69, R75). -/
inductive Inserted where
  | own (f : OwnFrame)
  | station (f : StationFrame)
  deriving DecidableEq, Repr

/-- The loop transmitter's state (R59). -/
inductive LoopTx where
  | idle
  | forwarding
  | inserting (f : Inserted)
  | aborting
  deriving DecidableEq, Repr

/-! ### Return log (chapter 5) -/

/-- Who an inserted frame belongs to (R83). -/
inductive Origin where
  | own
  | station (tag : Tag) (cls : StationClass)
  deriving DecidableEq, Repr

/-- An entry's state; the returned tally is present in RETURNING alone (R83). -/
inductive LogState where
  | outstanding
  | returning (tally : Tally)
  deriving DecidableEq, Repr

/-- A return log entry (R83). -/
structure LogEntry where
  seq : Byte
  origin : Origin
  da : Address
  sa : Address
  kind : Byte
  declared : Nat
  insertedAt : Word32
  state : LogState
  silent : Bool
  deriving DecidableEq, Repr

/-- How an entry closes; the tally goes with RETURNED and DAMAGED (R85, R93). -/
inductive Closing where
  | returned (tally : Tally)
  | damaged (tally : Tally)
  | lost
  | flushed
  deriving DecidableEq, Repr

/-! ### Delivery and the station port (chapters 6, 7) -/

/-- A delivery entry (R100), with the info octets it stores. -/
structure DeliveryEntry where
  reservation : Nat
  header : Header
  info : List Byte
  copied : Nat
  status : EndStatus
  onPort : Bool
  deriving DecidableEq, Repr

/-- The port state (R116). -/
inductive PortState where
  | break
  | active
  deriving DecidableEq, Repr

/-- The reasons of a REFUSAL (R121). -/
inductive Reason where
  | queueFull
  | badSource
  | badHeader
  | notInService
  deriving DecidableEq, Repr

/-- The owner of a session, and the requester identities (R158, R159). -/
inductive Owner where
  | loop (a : Address)
  | station
  deriving DecidableEq, Repr

/-- The detail of a raise (R176, 11 section 11.5). -/
inductive Detail where
  | none
  | address (a : Address)
  | time (t : Word32)
  | label (l : Byte)
  | station
  | powerOn
  deriving DecidableEq, Repr

/-- The contents a PORT STATUS takes when its sending begins (R124). -/
structure PortStatus where
  mode : Mode
  freeUrgent : Nat
  freeNormal : Nat
  freeOctets : Nat
  discarded : Nat
  flushed : Nat
  line : LineState
  deriving DecidableEq, Repr

/-- A record of the report queue (R122). A PORT STATUS that still waits has no contents (R124). -/
inductive Report where
  | completion (tag : Tag) (cls : StationClass) (seq : Byte) (closing : Closing)
  | refusal (tag : Tag) (cls : StationClass) (reason : Reason) (freeUrgent freeNormal freeOctets : Nat)
  | portStatus (contents : Option PortStatus)
  | noticeCopy (kind : NoticeKind) (occurrences : Nat) (detail : Detail)
  deriving DecidableEq, Repr

/-- A REPLY report of the reply slot (R126). -/
structure ReplyReport where
  tag : Tag
  body : List Byte
  deriving DecidableEq, Repr

/-- The station port transmitter's state (R127); what it sends is the head of the queue, slot or store named. -/
inductive PortTx where
  | idle
  | record
  | reply
  | delivery
  | aborting
  deriving DecidableEq, Repr

/-! ### Management, sessions, notices (chapters 8, 9, 10) -/

/-- A request's source with who is answered: the SA for LOOP, the submit tag for STATION (R133). -/
inductive Requester where
  | loop (sa : Address)
  | station (tag : Tag)
  deriving DecidableEq, Repr

/-- A management request (R133). -/
structure Request where
  source : Requester
  octets : List Byte
  complete : Bool
  deriving DecidableEq, Repr

/-- The parameters (R142). -/
structure Params where
  defaultAction : Action
  hopLimit : Nat
  cutLead : Nat
  returnTimeout : Nat
  sessionTimeout : Nat
  noticeDest : Address
  noticeRetry : Nat
  noticeRetries : Nat
  noticeToStation : Bool
  localManage : Bool
  lineSilence : Nat
  normalFair : Nat
  deriving DecidableEq, Repr

/-- The power-on values of the parameters (R142). -/
def Params.powerOn : Params where
  defaultAction := .pass
  hopLimit := 32
  cutLead := 24
  returnTimeout := 20
  sessionTimeout := 5000
  noticeDest := ⟨0, 0⟩
  noticeRetry := 200
  noticeRetries := 3
  noticeToStation := true
  localManage := true
  lineSilence := 50
  normalFair := 4

/-- An OPEN session (R158); CLOSED is the absence of one. -/
structure Session where
  owner : Owner
  staged : List StagedEntry
  lastCommand : Word32
  deriving DecidableEq, Repr

/-- What an OUTSTANDING slot holds (R177); the deadline is a placement time and a retry interval, absent while a
resend waits for its place (R183). -/
structure OutNotice where
  occurrences : Nat
  sinceSend : Nat
  seq : Byte
  sends : Nat
  deadline : Option (Word32 × Nat)
  detail : Detail
  deriving DecidableEq, Repr

/-- A notice slot (R177). -/
inductive Slot where
  | idle
  | pending (occurrences : Nat) (detail : Detail)
  | outstanding (n : OutNotice)
  deriving DecidableEq, Repr

/-! ### The state -/

/-- The whole part. INVENTORY.md lists each field with its rule and reset value. -/
structure State where
  /-- The power-on reset pin is asserted (R63). -/
  resetAsserted : Bool
  timer : Word32
  strapped : Address
  mode : Mode
  rx : LoopRx
  sup : Supervisor
  verdict : Option VerdictRecord
  active : List TableEntry
  epoch : Byte
  session : Option Session
  transit : List TransitEntry
  ltx : LoopTx
  own : List OwnFrame
  urgent : List StationFrame
  normal : List StationFrame
  fairness : Nat
  log : List LogEntry
  logSeq : Byte
  delivery : List DeliveryEntry
  port : PortState
  srx : StationRx
  reports : List Report
  /-- A PORT STATUS is held (R123). -/
  statusHeld : Bool
  replies : List ReplyReport
  discarded : Nat
  flushed : Nat
  ptx : PortTx
  requests : List Request
  params : Params
  identity : Vector (Option Address) 4
  managers : Vector (Option Address) 4
  counters : Vector Word32 16
  slots : Vector Slot 8
  noticeSeq : Byte
  /-- The model's own field: the commands that wait, first in, first out. -/
  pending : List Instr
  deriving DecidableEq, Repr

/-- The spec gives the part no fault that stops it (INVENTORY.md, heading Faults): no command faults. -/
inductive Fault where
  deriving DecidableEq, Repr

/-- The one refusal: a command whose meaning is not written. Raised by `exec` alone; safe, since nothing then runs. No
command is refused now. -/
inductive Refusal where
  | notModelled (mnemonic : String)
  deriving DecidableEq, Repr

/-- The strapped address of `State.reset`. DESIGN CHOICE (unsafe, log entry 3): the straps are pins, and the spec gives
them no value; 12.7 is the address of its worked examples and gives SERVICE mode (R22). -/
def State.resetAddress : Address := ⟨12, 7⟩

/-- The part right after power-on reset is released (R16, R20, R22, R23, R27, R45, R66, R68, R73, R82, R84, R99, R132,
R142, R146, R151, R157, R177, R188), with the straps of `State.resetAddress` and no command waiting. -/
def State.reset : State where
  resetAsserted := false
  timer := 0
  strapped := State.resetAddress
  mode := .service
  rx := ⟨.hunt, 0, []⟩
  sup := ⟨.down, 0, 0, false⟩
  verdict := none
  active := []
  epoch := 0
  session := none
  transit := []
  ltx := .idle
  own := []
  urgent := []
  normal := []
  fairness := 0
  log := []
  logSeq := 0
  delivery := []
  port := .break
  srx := ⟨.hunt, 0, 0, []⟩
  reports := []
  statusHeld := false
  replies := []
  discarded := 0
  flushed := 0
  ptx := .idle
  requests := []
  params := Params.powerOn
  identity := #v[some State.resetAddress, none, none, none]
  managers := #v[none, none, none, none]
  counters := Vector.replicate 16 0
  slots := #v[.pending 1 .powerOn, .idle, .idle, .idle, .idle, .idle, .idle, .idle]
  noticeSeq := 0
  pending := []

end Sys2Proof.Machine
end

