-- ==== Sys2Proof/Machine/LineCode.lean ====
section
/-! DEFINITION. The code of both lines (chapter 1, 03 section 3.7, 07 section 7.1): bits of an octet, zero insertion, the
FCS, what a receiver keeps of a frame and how it judges its end, and the receive line's bits turned into events. -/

namespace Sys2Proof.Machine

/-! ### Sending bits (R5, R60, R61) -/

/-- An octet's bits in line order, least significant first (R5). -/
def octetBits (v : Byte) : List Bool :=
  [v.getLsbD 0, v.getLsbD 1, v.getLsbD 2, v.getLsbD 3, v.getLsbD 4, v.getLsbD 5, v.getLsbD 6, v.getLsbD 7]

/-- The bits of a run of octets in line order. -/
def lineBits (octets : List Byte) : List Bool := octets.flatMap octetBits

/-- Zero insertion (R60): a zero after every five consecutive ones, `run` ones having gone before. -/
def stuff (run : Nat) : List Bool → List Bool
  | [] => []
  | true :: bs => if run = 4 then true :: false :: stuff 0 bs else true :: stuff (run + 1) bs
  | false :: bs => false :: stuff 0 bs

/-- The flag (R60): a zero, six ones and a zero. -/
def flagBits : List Bool := [false, true, true, true, true, true, true, false]

/-- The abort pattern (R61): eight consecutive ones. -/
def abortBits : List Bool := List.replicate 8 true

/-- A frame between its flags on the line (R60): opening flag, the octets with zeros inserted, closing flag. -/
def frameBits (octets : List Byte) : List Bool := flagBits ++ (stuff 0 (lineBits octets) ++ flagBits)

/-- The run count of ones after line bits (R1). -/
def onesAfter (run : Nat) (bits : List Bool) : Nat := bits.foldl (fun n b => if b then n + 1 else 0) run

/-- The zero run after line bits (R116). -/
def zerosAfter (run : Nat) (bits : List Bool) : Nat := bits.foldl (fun n b => if b then 0 else n + 1) run

/-- The greatest zero run while line bits arrive, from the run before them on (R116). -/
def zeroPeak (run : Nat) : List Bool → Nat
  | [] => run
  | b :: bs => max run (zeroPeak (if b then 0 else run + 1) bs)

/-- The line bits that bring settled data bits, `run` ones having gone before: the data with the zeros inserted among them,
and before them the zero that ended an abort or line idle, which is not data (R1, R60). -/
def bitsBringing (run : Nat) (data : List Bool) : List Bool :=
  if run < 7 then stuff 0 data else false :: stuff 0 data

/-! ### Frame check sequence (R10, R11) -/

/-- Takes one bit into the FCS remainder (R10). -/
def fcsBit (rem : Word16) (b : Bool) : Word16 :=
  if b = rem.getLsbD 0 then rem >>> 1 else (rem >>> 1) ^^^ 0x8408#16

/-- Takes one octet into the FCS remainder, least significant bit first (R10). -/
def fcsOctet (rem : Word16) (v : Byte) : Word16 := (octetBits v).foldl fcsBit rem

/-- The preset of the FCS remainder (R10). -/
def fcsPreset : Word16 := 0xFFFF#16

/-- The computed FCS of a frame's octets (R10). -/
def fcsOf (octets : List Byte) : Word16 := octets.foldl fcsOctet fcsPreset

/-- The FCS field a sender forms: the complement of the computed FCS, low octet first (R10). -/
def fcsField (octets : List Byte) : List Byte :=
  [(~~~ fcsOf octets).extractLsb' 0 8, (~~~ fcsOf octets).extractLsb' 8 8]

/-- A frame's octets with their FCS field (R10, R56, R77, R128). -/
def withFcs (octets : List Byte) : List Byte := octets ++ fcsField octets

/-! ### What a receiver keeps of a frame (R4, R5, R6, R115)

`lead` is the number of octets before the loop header: 0 on the loop, 1 (the port octet) on the station port. -/

/-- A number of two octets, the most significant first (11). -/
def num16 (hi lo : Byte) : Nat := hi.toNat * 256 + lo.toNat

/-- The declared length in kept octets: header octets 7 and 8 (R6). -/
def declaredIn (lead : Nat) (head : List Byte) : Nat := num16 (head.getD (lead + 6) 0) (head.getD (lead + 7) 0)

/-- The declared length as used for placing octets; 0 until it has been taken. -/
def RxFrame.length (f : RxFrame) : Nat := f.declared.getD 0

/-- Before the first octet: the FCS remainder preset (R4). -/
def RxFrame.empty : RxFrame := ⟨0, fcsPreset, [], none, []⟩

/-- Takes a completed octet that is not excess (R5): header octets are kept, header and info go into the FCS
remainder, the declared length is taken when the header completes, the FCS octets are kept for the check. -/
def RxFrame.push (lead : Nat) (f : RxFrame) (v : Byte) : RxFrame :=
  if f.count < lead + 8 then
    { f with count := f.count + 1, fcs := fcsOctet f.fcs v, head := f.head ++ [v],
             declared := if f.count + 1 = lead + 8 then some (declaredIn lead (f.head ++ [v])) else f.declared }
  else if f.count < lead + 8 + f.length then
    { f with count := f.count + 1, fcs := fcsOctet f.fcs v }
  else
    { f with count := f.count + 1, check := f.check ++ [v] }

/-- The octet now completing would be the excess octet (R5, R13, R115). -/
def RxFrame.atExcess (lead : Nat) (f : RxFrame) : Bool :=
  decide (lead + 8 ≤ f.count ∧ f.count + 1 = lead + 8 + f.length + 3)

/-- The octet just taken is an info octet (R5). -/
def RxFrame.tookInfo (lead : Nat) (f : RxFrame) : Bool :=
  decide (lead + 8 < f.count ∧ f.count ≤ lead + 8 + f.length)

/-- The check of R11: the two FCS octets, first received low, complemented, equal the computed FCS. -/
def RxFrame.fcsGood (f : RxFrame) : Bool :=
  match f.check with
  | [lo, hi] => decide (~~~ (hi ++ lo : Word16) = f.fcs)
  | _ => false

/-- The condition a closing flag gives the frame: the first check of R12 (R115 on the station port) that applies.
`ragged` says that data bits stand in the collector. -/
def RxFrame.judge (lead : Nat) (ragged : Bool) (f : RxFrame) : EndCond :=
  if ragged then .ragged
  else if f.count < lead + 10 then .runt
  else if f.count < lead + 8 + f.length + 2 then .length
  else if f.fcsGood then .good
  else .badFcs

/-! ### The receive line's bits (R1 to R5)

What the receivers see between events is one bit at a time. `LineRx.bit` classifies it by R1, settles the ones it held,
and names the events, whichever line it is; `LineCommands.lean` names the command each event is, and reads the run and the
collector from the state. -/

/-- A receive line: the run count of ones, which are the ones held provisionally, and the octet collector. -/
structure LineRx where
  run : Nat
  collector : List Bool
  deriving DecidableEq, Repr

/-- What a line brings (R1, R2). -/
inductive LineEvent where
  /-- A flag, with the data bits it finds in the collector. -/
  | flag (tail : List Bool)
  | octet (v : Byte)
  | abort
  | idle
  deriving DecidableEq, Repr

/-- The octet eight collected bits make, the first its least significant (R5). -/
def octetOf (bits : List Bool) : Byte :=
  bits.foldr (fun b acc => (acc <<< 1) ||| (if b then 1#8 else 0#8)) 0#8

/-- Passes settled data bits to the collector; each time it holds eight bits an octet completes (R5). -/
def collect : List Bool → List Bool → List Bool × List LineEvent
  | c, [] => (c, [])
  | c, b :: bs =>
    if c.length = 7 then
      let r := collect [] bs
      (r.1, .octet (octetOf (c ++ [b])) :: r.2)
    else collect (c ++ [b]) bs

/-- One bit on a receive line (the table of R1). Held ones are settled by the zero that follows them: after 0 to 4 ones
the zero is data too, after five it is an inserted zero, after six it completes a flag, whose first zero is taken back
out of the collector if it is there (R2), after seven or more it ends an abort or line idle. -/
def LineRx.bit (l : LineRx) (b : Bool) : LineRx × List LineEvent :=
  if b then
    if l.run = 6 then (⟨7, []⟩, [.abort])
    else if l.run = 14 then (⟨15, []⟩, [.idle])
    else (⟨l.run + 1, l.collector⟩, [])
  else if l.run ≤ 4 then
    let r := collect l.collector (List.replicate l.run true ++ [false])
    (⟨0, r.1⟩, r.2)
  else if l.run = 5 then
    let r := collect l.collector (List.replicate 5 true)
    (⟨0, r.1⟩, r.2)
  else if l.run = 6 then
    (⟨0, []⟩, [.flag (if l.collector.getLast? = some false then l.collector.dropLast else l.collector)])
  else (⟨0, []⟩, [])

/-- The events of a run of bits on a receive line. -/
def LineRx.bits (l : LineRx) : List Bool → LineRx × List LineEvent
  | [] => (l, [])
  | b :: bs =>
    let r := l.bit b
    let t := LineRx.bits r.1 bs
    (t.1, r.2 ++ t.2)

end Sys2Proof.Machine
end

