-- ==== Sys2Proof/Machine/Formats.lean ====
section
/-! DEFINITION. The octet layouts and code tables of chapter 11 (R190, R191): every frame, report and body the part
sends, and the headers it reads. -/

namespace Sys2Proof.Machine

/-! ### Numbers -/

/-- A number in one octet. -/
def oct (n : Nat) : Byte := BitVec.ofNat 8 n

/-- A number in two octets, the most significant first (11). -/
def be16 (n : Nat) : List Byte := [oct (n / 256), oct n]

/-- A number in four octets, the most significant first (11). -/
def be32 (w : Word32) : List Byte :=
  [w.extractLsb' 24 8, w.extractLsb' 16 8, w.extractLsb' 8 8, w.extractLsb' 0 8]

/-- An address: group first, then member (11). -/
def Address.octets (a : Address) : List Byte := [a.group, a.member]

/-- The unset value of NOTICE_DEST (00 section 7). -/
def Address.unset : Address := ⟨0, 0⟩

/-! ### The loop frame (11.1) -/

def kindData : Byte := 0x01
def kindManage : Byte := 0x02
def kindReply : Byte := 0x03
def kindNotice : Byte := 0x04

/-- The tally octet: hops in bits 0 to 5, CLAIMED in bit 6, REFUSED in bit 7 (11.1). -/
def Tally.octet (t : Tally) : Byte :=
  BitVec.ofBool t.refused ++ (BitVec.ofBool t.claimed ++ BitVec.ofNat 6 t.hops : BitVec 7)

/-- Reads a tally octet (11.1). Every value is a tally (R192). -/
def Tally.ofOctet (v : Byte) : Tally := ⟨(v.extractLsb' 0 6).toNat, v.getLsbD 6, v.getLsbD 7⟩

/-- The eight header octets (11.1). -/
def Header.octets (h : Header) : List Byte :=
  h.da.octets ++ h.sa.octets ++ [h.kind, h.tally.octet] ++ be16 h.declared

/-- Reads a header that begins `lead` octets into a run of octets (11.1). -/
def Header.ofOctets (lead : Nat) (o : List Byte) : Header where
  da := ⟨o.getD lead 0, o.getD (lead + 1) 0⟩
  sa := ⟨o.getD (lead + 2) 0, o.getD (lead + 3) 0⟩
  kind := o.getD (lead + 4) 0
  tally := Tally.ofOctet (o.getD (lead + 5) 0)
  declared := declaredIn lead o

/-! ### Small codes (11.2, 11.3) -/

def Mode.octet : Mode → Byte
  | .service => 0x01
  | .repeater => 0x02

def LineState.octet : LineState → Byte
  | .down => 0x00
  | .up => 0x01

def PortState.octet : PortState → Byte
  | .break => 0x00
  | .active => 0x01

def Action.octet : Action → Byte
  | .pass => 0x00
  | .copy => 0x01
  | .drop => 0x02

def Action.ofOctet (v : Byte) : Option Action :=
  if v = 0x00 then some .pass else if v = 0x01 then some .copy else if v = 0x02 then some .drop else none

def Policy.octet : Policy → Byte
  | .quiet => 0x00
  | .mark => 0x01

def Policy.ofOctet (v : Byte) : Option Policy :=
  if v = 0x00 then some .quiet else if v = 0x01 then some .mark else none

/-- An address-or-EMPTY (11.3); the address octets of EMPTY are zero (R191). -/
def addressOrEmptyOctets : Option Address → List Byte
  | none => [0x00, 0, 0]
  | some a => 0x01 :: a.octets

/-- An owner (11.3); the address octets of STATION are zero (R191). -/
def Owner.octets : Owner → List Byte
  | .loop a => 0x00 :: a.octets
  | .station => [0x01, 0, 0]

/-- The owner octets of STATUS: zero while the session is CLOSED (R191). -/
def ownerOctets : Option Owner → List Byte
  | none => [0, 0, 0]
  | some o => o.octets

/-- A detail: a form, then four value octets, the unused ones zero (11.5, R191). -/
def Detail.octets : Detail → List Byte
  | .none => [0x00, 0, 0, 0, 0]
  | .address a => [0x01, a.group, a.member, 0, 0]
  | .time t => 0x02 :: be32 t
  | .label l => [0x03, l, 0, 0, 0]
  | .station => [0x04, 0, 0, 0, 0]
  | .powerOn => [0x05, 0, 0, 0, 0]

/-! ### Notice kinds (11.5): the code is the priority (R176) -/

def noticeCode : NoticeKind → Fin 8
  | .started => 0
  | .sessionExpired => 1
  | .deliveryRefused => 2
  | .orphan => 3
  | .transitRefused => 4
  | .underrun => 5
  | .lineUp => 6
  | .lineDown => 7

/-- The kinds, highest priority first. -/
def noticeKinds : List NoticeKind :=
  [.lineDown, .lineUp, .underrun, .transitRefused, .orphan, .deliveryRefused, .sessionExpired, .started]

def noticeKindOf (v : Byte) : Option NoticeKind :=
  noticeKinds.find? (fun k => oct (noticeCode k) = v)

/-! ### The station port (11.2) -/

/-- A tag octet: submit tag in bits 0 to 6, class in bit 7, 1 for URGENT (11.2). -/
def tagOctet (tag : Tag) (cls : StationClass) : Byte := BitVec.ofBool (cls = .urgent) ++ tag

/-- The submit tag in a port octet from the station. -/
def tagOf (v : Byte) : Tag := v.extractLsb' 0 7

/-- The class in a port octet from the station. -/
def classOf (v : Byte) : StationClass := if v.getLsbD 7 then .urgent else .normal

def Reason.octet : Reason → Byte
  | .queueFull => 0x01
  | .badSource => 0x02
  | .badHeader => 0x03
  | .notInService => 0x04

/-- A COMPLETION's octets from the outcome on; the tally is present for RETURNED and DAMAGED alone (11.2). -/
def Closing.octets : Closing → List Byte
  | .returned t => [0x01, t.octet]
  | .damaged t => [0x02, t.octet]
  | .lost => [0x03]
  | .flushed => [0x04]

def PortStatus.octets (p : PortStatus) : List Byte :=
  [p.mode.octet, oct p.freeUrgent, oct p.freeNormal] ++ be16 p.freeOctets ++
    [oct p.discarded, oct p.flushed, p.line.octet]

/-- A record's port octet and body (11.2). A PORT STATUS has its contents only while it is being sent (R124). -/
def Report.octets : Report → List Byte
  | .completion tag cls seq closing => [0x02, tagOctet tag cls, seq] ++ closing.octets
  | .refusal tag cls reason fu fn fo => [0x03, tagOctet tag cls, reason.octet, oct fu, oct fn] ++ be16 fo
  | .portStatus none => [0x04]
  | .portStatus (some p) => 0x04 :: p.octets
  | .noticeCopy kind occ detail => [0x06, oct (noticeCode kind), oct occ] ++ detail.octets

/-- A REPLY report's port octet and body: the tag octet's bit 7 is zero (11.2, R191). -/
def ReplyReport.octets (r : ReplyReport) : List Byte := [0x05, tagOctet r.tag .normal] ++ r.body

/-- A DELIVERY report's port octet and body: the header as received, then the info (R109). -/
def DeliveryEntry.octets (e : DeliveryEntry) : List Byte := 0x01 :: (e.header.octets ++ e.info)

/-! ### Requests and replies (11.3) -/

/-- The results of a reply (11.3). -/
inductive Result where
  | done
  | notAuthorized
  | badCommand
  | badOperand
  | noSession
  | sessionBusy
  | duplicate
  | tableFull
  | noEntry
  | inUse
  | notOutstanding
  deriving DecidableEq, Repr

def Result.octet : Result → Byte
  | .done => 0x00
  | .notAuthorized => 0x01
  | .badCommand => 0x02
  | .badOperand => 0x03
  | .noSession => 0x04
  | .sessionBusy => 0x05
  | .duplicate => 0x06
  | .tableFull => 0x07
  | .noEntry => 0x08
  | .inUse => 0x09
  | .notOutstanding => 0x0A

/-- The result and data a command answers with. -/
structure Answer where
  result : Result
  data : List Byte
  deriving DecidableEq, Repr

/-- A DONE answer with data. -/
def Answer.ok (data : List Byte) : Answer := ⟨.done, data⟩

/-- A refusal without data. -/
def Answer.refusal (r : Result) : Answer := ⟨r, []⟩

/-- The commands the engine knows (8.3). -/
inductive Command where
  | status
  | paramRead
  | paramWrite
  | listRead
  | listWrite
  | tableRead
  | countersRead
  | sessionOpen
  | entryInsert
  | entryReplace
  | entryRemove
  | sessionCommit
  | sessionDiscard
  | noticeAck
  | restart
  deriving DecidableEq, Repr

/-- The command codes (11.3). -/
def Command.octet : Command → Byte
  | .status => 0x01
  | .paramRead => 0x02
  | .paramWrite => 0x03
  | .listRead => 0x04
  | .listWrite => 0x05
  | .tableRead => 0x06
  | .countersRead => 0x07
  | .sessionOpen => 0x10
  | .entryInsert => 0x11
  | .entryReplace => 0x12
  | .entryRemove => 0x13
  | .sessionCommit => 0x14
  | .sessionDiscard => 0x15
  | .noticeAck => 0x20
  | .restart => 0x30

/-- Every command, for the search by code. -/
def Command.all : List Command :=
  [.status, .paramRead, .paramWrite, .listRead, .listWrite, .tableRead, .countersRead, .sessionOpen, .entryInsert,
    .entryReplace, .entryRemove, .sessionCommit, .sessionDiscard, .noticeAck, .restart]

def Command.ofOctet (v : Byte) : Option Command := Command.all.find? (fun c => c.octet = v)

/-- The code NONE of a reply to a request without a command (11.3). -/
def commandNone : Byte := 0x00

/-! ### Table entries (11.4) -/

/-- Octets 1 to 7 of an entry; the group value of ANY is zero (11.4, R191). -/
def Rule.octets (r : Rule) : List Byte :=
  (match r.key.group with
    | none => [0x01, 0]
    | some g => [0x00, g]) ++ [r.key.low, r.key.high, r.action.octet, r.policy.octet, r.label]

/-- An entry record of a TABLE READ reply: position, entry with hit count, origin or 0xFF (11.4). -/
def entryRecord (position : Nat) (r : Rule) (hits : Nat) (origin : Option Nat) : List Byte :=
  oct position :: (r.octets ++ be16 hits ++ [(origin.map oct).getD 0xFF])

/-! ### Counters and parameters -/

/-- The counters of the bank, by number (R151). -/
inductive Counter where
  | forwarded
  | inserted
  | delivered
  | stripped
  | dropped
  | orphaned
  | rxBad
  | badHeader
  | transitRefused
  | underrun
  | deliveryRefused
  | lost
  | stray
  | mgmtDropped
  | portDiscarded
  | noticesAbandoned
  deriving DecidableEq, Repr

def Counter.number : Counter → Fin 16
  | .forwarded => 0
  | .inserted => 1
  | .delivered => 2
  | .stripped => 3
  | .dropped => 4
  | .orphaned => 5
  | .rxBad => 6
  | .badHeader => 7
  | .transitRefused => 8
  | .underrun => 9
  | .deliveryRefused => 10
  | .lost => 11
  | .stray => 12
  | .mgmtDropped => 13
  | .portDiscarded => 14
  | .noticesAbandoned => 15

/-- The parameters by name (R142). -/
inductive Param where
  | defaultAction
  | hopLimit
  | cutLead
  | returnTimeout
  | sessionTimeout
  | noticeDest
  | noticeRetry
  | noticeRetries
  | noticeToStation
  | localManage
  | lineSilence
  | normalFair
  deriving DecidableEq, Repr

/-- The parameters in the order of R142, which is the order of their codes (11.3). -/
def Param.all : List Param :=
  [.defaultAction, .hopLimit, .cutLead, .returnTimeout, .sessionTimeout, .noticeDest, .noticeRetry, .noticeRetries,
    .noticeToStation, .localManage, .lineSilence, .normalFair]

/-- The parameter codes (11.3). -/
def Param.code : Param → Nat
  | .defaultAction => 0
  | .hopLimit => 1
  | .cutLead => 2
  | .returnTimeout => 3
  | .sessionTimeout => 4
  | .noticeDest => 5
  | .noticeRetry => 6
  | .noticeRetries => 7
  | .noticeToStation => 8
  | .localManage => 9
  | .lineSilence => 10
  | .normalFair => 11

def Param.ofOctet (v : Byte) : Option Param := Param.all.find? (fun p => oct p.code = v)

/-- OFF and ON (11.3). -/
def onOff (b : Bool) : Nat := if b then 1 else 0

/-- A parameter's value as its two octets give it (11.3). -/
def Params.read (ps : Params) : Param → Nat
  | .defaultAction => ps.defaultAction.octet.toNat
  | .hopLimit => ps.hopLimit
  | .cutLead => ps.cutLead
  | .returnTimeout => ps.returnTimeout
  | .sessionTimeout => ps.sessionTimeout
  | .noticeDest => num16 ps.noticeDest.group ps.noticeDest.member
  | .noticeRetry => ps.noticeRetry
  | .noticeRetries => ps.noticeRetries
  | .noticeToStation => onOff ps.noticeToStation
  | .localManage => onOff ps.localManage
  | .lineSilence => ps.lineSilence
  | .normalFair => ps.normalFair

/-- A parameter's identity and value in a PARAM READ reply (11.3). -/
def Params.record (ps : Params) (p : Param) : List Byte := oct p.code :: be16 (ps.read p)

end Sys2Proof.Machine
end

