-- ==== Sys2Proof/Machine/Operands.lean ====
section
/-! DEFINITION. Reading the operands of requests (11.3, 11.4, R137, R142, R192): `none` is a value its field does not
admit, which check 4 of R138 (S3 of R161 for an entry) answers with BAD_OPERAND. -/

namespace Sys2Proof.Machine

/-- A number within a parameter's range (R142). -/
def inRange (low high v : Nat) : Bool := decide (low ≤ v ∧ v ≤ high)

/-- The parameters after a write of `v` to `p`, or none where `v` is out of the range of R142. NOTICE_DEST takes every
value, group in the high octet (R144, 11.3). -/
def Params.write (ps : Params) (p : Param) (v : Nat) : Option Params :=
  match p with
  | .defaultAction =>
    if v = 0 then some { ps with defaultAction := .pass }
    else if v = 1 then some { ps with defaultAction := .copy }
    else if v = 2 then some { ps with defaultAction := .drop }
    else none
  | .hopLimit => if inRange 2 63 v then some { ps with hopLimit := v } else none
  | .cutLead => if inRange 8 522 v then some { ps with cutLead := v } else none
  | .returnTimeout => if inRange 1 1000 v then some { ps with returnTimeout := v } else none
  | .sessionTimeout => if inRange 100 60000 v then some { ps with sessionTimeout := v } else none
  | .noticeDest => some { ps with noticeDest := ⟨oct (v / 256), oct v⟩ }
  | .noticeRetry => if inRange 10 5000 v then some { ps with noticeRetry := v } else none
  | .noticeRetries => if inRange 0 7 v then some { ps with noticeRetries := v } else none
  | .noticeToStation => if inRange 0 1 v then some { ps with noticeToStation := decide (v = 1) } else none
  | .localManage => if inRange 0 1 v then some { ps with localManage := decide (v = 1) } else none
  | .lineSilence => if inRange 1 1000 v then some { ps with lineSilence := v } else none
  | .normalFair => if inRange 1 15 v then some { ps with normalFair := v } else none

/-- The parameters a PARAM READ names: one, or all twelve for 0xFF (R143, 11.3). -/
def readParams (v : Byte) : Option (List Param) :=
  if v = 0xFF then some Param.all else (Param.ofOctet v).map (fun p => [p])

/-- The two lists (11.3). -/
inductive ListName where
  | identity
  | manager
  deriving DecidableEq, Repr

def ListName.ofOctet (v : Byte) : Option ListName :=
  if v = 0x00 then some .identity else if v = 0x01 then some .manager else none

/-- A list index, 0 to 3 (R147 check 4a). -/
def readIndex (v : Byte) : Option (Fin 4) := if h : v.toNat < 4 then some ⟨v.toNat, h⟩ else none

/-- An address-or-EMPTY: the form decides, and the address octets of EMPTY are ignored (11.3, R192). -/
def readAddressOrEmpty (form group member : Byte) : Option (Option Address) :=
  if form = 0x00 then some none else if form = 0x01 then some (some ⟨group, member⟩) else none

/-- The two tables of TABLE READ (11.3). -/
inductive TableName where
  | active
  | staged
  deriving DecidableEq, Repr

def TableName.ofOctet (v : Byte) : Option TableName :=
  if v = 0x00 then some .active else if v = 0x01 then some .staged else none

/-- The clear flag is bit 0 (11.3, R192). -/
def clearFlag (v : Byte) : Bool := v.getLsbD 0

/-- The group match of an entry: the group value of ANY is ignored (11.4, R192). -/
def readGroup (form group : Byte) : Option (Option Byte) :=
  if form = 0x00 then some (some group) else if form = 0x01 then some none else none

/-- Reads an entry's octets 1 to 7 (11.4); none where check S3 of R161 fails. -/
def readRule (form group low high action policy label : Byte) : Option Rule :=
  match readGroup form group, Action.ofOctet action, Policy.ofOctet policy with
  | some g, some a, some p => if low.toNat ≤ high.toNat then some ⟨⟨g, low, high⟩, a, p, label⟩ else none
  | _, _, _ => none

end Sys2Proof.Machine
end

