-- ==== Sys2Proof/Machine/Flags.lean ====
section
/-! DEFINITION. The conditions and figures the part judges from its state: deadlines, free space, gates, budget, who may
do what. Each has its home here and is computed, not stored. -/

namespace Sys2Proof.Machine

/-! ### Deadlines and addresses -/

/-- A deadline is reached when timer minus start, modulo 2^32, is the interval or more (R16). -/
def deadlineReached (now start : Word32) (interval : Nat) : Bool := decide (interval ≤ (now - start).toNat)

/-- The mode a strapped address gives (R22). -/
def modeOf (a : Address) : Mode :=
  if a.group = 0 ∨ a.group = 255 ∨ a.member = 0 ∨ a.member = 255 then .repeater else .service

/-- An address is held in a non-empty entry of a list (R23, R146). -/
def listed (l : Vector (Option Address) 4) (a : Address) : Bool := decide (some a ∈ l.toList)

/-- The SA test of the classifier and the station port (R23). -/
def State.isIdentity (s : State) (a : Address) : Bool := listed s.identity a

/-- NOTICE_DEST is set, that is, not 0.0 (R180). -/
def State.destSet (s : State) : Bool := decide (s.params.noticeDest ≠ Address.unset)

/-! ### Table matching (R25, R28) -/

/-- A DA matches a key (R25). -/
def Key.admits (k : Key) (da : Address) : Bool :=
  decide ((k.group = none ∨ k.group = some da.group) ∧ k.low.toNat ≤ da.member.toNat ∧ da.member.toNat ≤ k.high.toNat)

/-- The position of the first entry whose key the DA matches (R28). -/
def lookup (table : List TableEntry) (da : Address) : Option Nat := table.findIdx? (fun e => e.rule.key.admits da)

/-! ### Stores and queues -/

/-- Octets reserved in the transit store (R45). -/
def State.transitReserved (s : State) : Nat := (s.transit.map (fun e => e.reservation)).sum

/-- The transit reservation can be made (R47). -/
def State.transitRoom (s : State) (declared : Nat) : Bool :=
  decide (s.transit.length < Config.transitEntries ∧ s.transitReserved + (8 + declared) ≤ Config.transitStore)

/-- Octets reserved in the delivery store (R99). -/
def State.deliveryReserved (s : State) : Nat := (s.delivery.map (fun e => e.reservation)).sum

/-- The delivery reservation can be made (R101, R103). -/
def State.deliveryRoom (s : State) (declared : Nat) : Bool :=
  decide (s.port = .active ∧ s.delivery.length < Config.deliveryEntries ∧
    s.deliveryReserved + (1 + 8 + declared) ≤ Config.deliveryStore)

/-- A station frame's reservation in the outbound store (R68). -/
def StationFrame.reservation (f : StationFrame) : Nat := 8 + f.declared

/-- The reservation an insertion in progress holds (R69). -/
def LoopTx.reservation : LoopTx → Nat
  | .inserting (.station f) => f.reservation
  | _ => 0

/-- Octets reserved in the station outbound store (R69). -/
def State.outboundReserved (s : State) : Nat :=
  (s.urgent.map (fun f => f.reservation)).sum + (s.normal.map (fun f => f.reservation)).sum + s.ltx.reservation

/-- Free octets of the station outbound store (R69). -/
def State.freeOutbound (s : State) : Nat := Config.outboundStore - s.outboundReserved

/-- Free URGENT places (R69). -/
def State.freeUrgent (s : State) : Nat := Config.classFrames - s.urgent.length

/-- Free NORMAL places (R69). -/
def State.freeNormal (s : State) : Nat := Config.classFrames - s.normal.length

/-- The queue of a class (R68). -/
def State.classQueue (s : State) : StationClass → List StationFrame
  | .urgent => s.urgent
  | .normal => s.normal

/-- Check 5 of R118: the class queue is full or the store lacks room for the frame. -/
def State.stationFull (s : State) (cls : StationClass) (declared : Nat) : Bool :=
  decide (Config.classFrames ≤ (s.classQueue cls).length ∨ s.freeOutbound < 8 + declared)

/-- The own output queue has a free place (R66). -/
def State.ownPlace (s : State) : Bool := decide (s.own.length < Config.ownFrames)

/-! ### Transit head (R55) -/

/-- The head's start condition (R55), CUT_LEAD as it stands. -/
def TransitEntry.mayStart (cutLead : Nat) (e : TransitEntry) : Bool :=
  decide (e.sending = .no ∧ (e.status = .good ∨ cutLead ≤ e.released))

/-! ### Return log, budget and gates (R71, R94) -/

/-- The entry is OUTSTANDING. -/
def LogEntry.isOutstanding (e : LogEntry) : Bool := decide (e.state = .outstanding)

/-- The entry is a STATION entry that is not silent: it counts in the budget and reports when it closes (R85, R94). -/
def LogEntry.reports (e : LogEntry) : Bool := decide (e.origin ≠ .own) && !e.silent

/-- The record is a COMPLETION report. -/
def Report.isCompletion : Report → Bool
  | .completion _ _ _ _ => true
  | _ => false

/-- The record is a PORT STATUS that waits: its sending has not begun (R123, R124). -/
def Report.isWaitingStatus : Report → Bool
  | .portStatus none => true
  | _ => false

/-- The completion budget in use (R94). -/
def State.budget (s : State) : Nat :=
  (s.log.filter (fun e => e.reports)).length + (s.reports.filter (fun r => r.isCompletion)).length

/-- The return log gate (R71). -/
def State.logGate (s : State) : Bool := decide (s.log.length < Config.logEntries)

/-- The completion budget gate (R71). -/
def State.budgetGate (s : State) : Bool := decide (s.budget < Config.completionBudget)

/-- The fairness exception (R74). -/
def State.fairnessExcepts (s : State) : Bool := decide (s.normal ≠ [] ∧ s.params.normalFair ≤ s.fairness)

/-- The frame identity of R83 equals a returning header's (R86). -/
def LogEntry.identifies (e : LogEntry) (h : Header) : Bool :=
  decide (e.da = h.da ∧ e.sa = h.sa ∧ e.kind = h.kind ∧ e.declared = h.declared)

/-- The return-log sequence the next entry takes: the first value from the counter upward that no entry holds (R84). -/
def nextSeq (counter : Byte) (log : List LogEntry) : Byte :=
  (((List.range Config.logEntries).map (fun k => counter + BitVec.ofNat 8 k)).find?
    (fun v => decide (v ∉ log.map (fun e => e.seq)))).getD counter

/-- An address is in use: a return log entry or a queued station frame carries it as SA (R96, R148). -/
def State.inUse (s : State) (a : Address) : Bool :=
  decide (a ∈ s.log.map (fun e => e.sa) ∨ a ∈ s.urgent.map (fun f => f.sa) ∨ a ∈ s.normal.map (fun f => f.sa))

/-! ### Report queue (R122, R123) -/

/-- A PORT STATUS waits, placed in the queue or held (R123). -/
def State.statusWaits (s : State) : Bool := s.statusHeld || s.reports.any (fun r => r.isWaitingStatus)

/-- The shared records in the queue (R122). -/
def State.sharedRecords (s : State) : Nat := (s.reports.filter (fun r => !r.isCompletion)).length

/-- The queue admits a REFUSAL (R122): the shared records, counting a held PORT STATUS, number fewer than 8. -/
def State.admitsShared (s : State) : Bool :=
  decide (s.sharedRecords + (if s.statusHeld then 1 else 0) < Config.sharedPlaces)

/-- The contents a PORT STATUS takes when its sending begins (R124). -/
def State.portStatus (s : State) : PortStatus :=
  ⟨s.mode, s.freeUrgent, s.freeNormal, s.freeOutbound, s.discarded, s.flushed, s.sup.line⟩

/-! ### Requests (R136, R137, R139) -/

/-- The session identity of a requester (R159). -/
def Requester.owner : Requester → Owner
  | .loop a => .loop a
  | .station _ => .station

/-- The requester as the detail of STARTED at RESTART (R176, R188). -/
def Requester.detail : Requester → Detail
  | .loop a => .address a
  | .station _ => .station

/-- A session's owner as the detail of SESSION_EXPIRED (R176). -/
def Owner.detail : Owner → Detail
  | .loop a => .address a
  | .station => .station

/-- The request came from the loop. -/
def Request.isLoop (r : Request) : Bool :=
  match r.source with
  | .loop _ => true
  | .station _ => false

/-- The request tag, 0 where there is none (R137). -/
def Request.tag (r : Request) : Byte := r.octets.getD 0 0

/-- The command octet, NONE where there is none (R137, R140). -/
def Request.commandOctet (r : Request) : Byte := r.octets.getD 1 commandNone

/-- The command, if it is one of section 8.3 (R137). -/
def Request.command (r : Request) : Option Command :=
  if r.octets.length < 2 then none else Command.ofOctet r.commandOctet

/-- The command's operands (R137). -/
def Request.operands (r : Request) : List Byte := r.octets.drop 2

/-- The reply path of a request has a free place (R136). -/
def State.replyPlace (s : State) (r : Request) : Bool :=
  match r.source with
  | .loop _ => s.ownPlace
  | .station _ => decide (s.replies.length < Config.replyPlaces)

/-- The head request, if the engine can carry it out: it is complete and its reply path has a place (R136). -/
def State.readyHead (s : State) : Option Request :=
  match s.requests with
  | [] => none
  | r :: _ => if r.complete && s.replyPlace r then some r else none

/-- Authority for a modifying command (R139). -/
def State.authorized (s : State) : Requester → Bool
  | .loop a => decide (∀ e ∈ s.managers.toList, e = none) || listed s.managers a
  | .station _ => s.params.localManage

/-! ### Notices (R180, R182) -/

/-- The slot of a kind (R177). -/
def State.slot (s : State) (k : NoticeKind) : Slot := s.slots.get (noticeCode k)

/-- The slot is PENDING. -/
def Slot.isPending : Slot → Bool
  | .pending _ _ => true
  | _ => false

/-- The slot is OUTSTANDING. -/
def Slot.isOutstanding : Slot → Bool
  | .outstanding _ => true
  | _ => false

/-- The slot is OUTSTANDING and its resend waits for a place: its deadline is absent (R183). -/
def Slot.resendWaits : Slot → Bool
  | .outstanding n => n.deadline.isNone
  | _ => false

/-- Priority (R176): the code. -/
def higher (k j : NoticeKind) : Bool := decide ((noticeCode j).val < (noticeCode k).val)

/-- The sendable slot (R180): the highest PENDING slot, if its priority is above every OUTSTANDING one and NOTICE_DEST
is set. -/
def State.sendable (s : State) : Option NoticeKind :=
  match noticeKinds.find? (fun k => (s.slot k).isPending) with
  | none => none
  | some k =>
    if s.destSet && noticeKinds.all (fun j => !(s.slot j).isOutstanding || higher k j) then some k else none

/-- The slot is OUTSTANDING, its deadline is reached, and sends made is NOTICE_RETRIES or less: its resend falls due in
this millisecond (R183). -/
def Slot.resendDue (now : Word32) (retries : Nat) : Slot → Bool
  | .outstanding n =>
    match n.deadline with
    | some (start, interval) => deadlineReached now start interval && decide (n.sends ≤ retries)
    | none => false
  | _ => false

/-- A resend of this kind may take a place now (R67, R182, R183): NOTICE_DEST is set, a place is free, and no resend of a
higher priority falls due in the same millisecond (log entry 5). -/
def State.resendPlace (s : State) (k : NoticeKind) : Bool :=
  s.destSet && s.ownPlace &&
    noticeKinds.all (fun j => !(higher j k && (s.slot j).resendDue s.timer s.params.noticeRetries))

end Sys2Proof.Machine
end

