-- ==== Sys2Proof/Machine/Ops.lean ====
section
/-! DEFINITION. The operations several commands share: counting, raising, placing reports and replies, closing return log
entries, and how a command's effect becomes an outcome. A command's event needs the part running: while the power-on
reset pin is asserted no command but the pin's own has an effect (R63, log entry 9). -/

namespace Sys2Proof.Machine

/-- The outcome of a command with effect `f`, after which no request and no notice can have become ready: none while
power-on reset is asserted (log entry 9). The other commands' outcome is `State.event` (Engine.lean). -/
def State.running (s : State) (f : State → State) : Host.Outcome State Fault Refusal :=
  .next (if s.resetAsserted then s else f s)

/-! ### Counters (R151) -/

/-- A counter's value. -/
def State.counter (s : State) (c : Counter) : Word32 := s.counters.get c.number

/-- Counts `n` causes of a counter at once; it wraps (R151). -/
def State.countN (s : State) (c : Counter) (n : Nat) : State :=
  { s with counters := s.counters.set c.number (s.counters.get c.number + BitVec.ofNat 32 n) }

/-- "X is counted" (00 section 7, R151). -/
def State.count (s : State) (c : Counter) : State := s.countN c 1

/-- A count that stays at 255 once there (R121, R125, R177). -/
def saturate (n : Nat) : Nat := min n Config.maxOctet

/-! ### Notices: raising (R178, R179) -/

/-- A raise on a slot (R178). -/
def Slot.raise (d : Detail) : Slot → Slot
  | .idle => .pending 1 d
  | .pending occ _ => .pending (saturate (occ + 1)) d
  | .outstanding n =>
    .outstanding { n with occurrences := saturate (n.occurrences + 1), sinceSend := saturate (n.sinceSend + 1),
                          detail := d }

/-- The NOTICE COPY a raise offers and the report queue admits (R122, R179). -/
def State.copiesOf (s : State) (k : NoticeKind) (d : Detail) : List Report :=
  if s.slot k = .idle ∧ s.params.noticeToStation ∧ s.port = .active ∧ s.admitsShared then [.noticeCopy k 1 d] else []

/-- "N is raised" (00 section 7, R178, R179). -/
def State.raise (s : State) (k : NoticeKind) (d : Detail) : State :=
  { s with slots := s.slots.set (noticeCode k) ((s.slot k).raise d), reports := s.reports ++ s.copiesOf k d }

/-! ### Reports -/

/-- A cause of a PORT STATUS (R123): a record joins, or is held, unless one waits or the port is in BREAK. -/
def State.causeStatus (s : State) : State :=
  if s.port = .active ∧ ¬ s.statusWaits then
    if s.sharedRecords < Config.sharedPlaces then { s with reports := s.reports ++ [.portStatus none] }
    else { s with statusHeld := true }
  else s

/-- A discard (R121): PORT_DISCARDED is counted, the discarded count rises, a PORT STATUS is caused. -/
def State.discard (s : State) : State :=
  ({ s.count .portDiscarded with discarded := saturate (s.discarded + 1) }).causeStatus

/-- A REFUSAL (R121): it joins the report queue, or the frame is discarded silently. -/
def State.refuse (s : State) (tag : Tag) (cls : StationClass) (reason : Reason) : State :=
  if s.admitsShared then
    { s with reports := s.reports ++ [.refusal tag cls reason s.freeUrgent s.freeNormal s.freeOutbound] }
  else s.discard

/-- The COMPLETION report of a closing entry, if it is a STATION entry that is not silent (R85, R93). -/
def LogEntry.completion? (o : Closing) (e : LogEntry) : Option Report :=
  match e.origin, e.silent with
  | .station tag cls, false => some (.completion tag cls e.seq o)
  | _, _ => none

/-- The COMPLETION reports of closing entries, in order; none is placed while the port is in BREAK (R122, R129). -/
def State.completionsOf (s : State) (o : Closing) (es : List LogEntry) : List Report :=
  if s.port = .active then es.filterMap (LogEntry.completion? o) else []

/-- Places the COMPLETION reports of entries that close with outcome `o` (R93). The caller removes the entries. -/
def State.placeCompletions (s : State) (o : Closing) (es : List LogEntry) : State :=
  { s with reports := s.reports ++ s.completionsOf o es }

/-- Entries close LOST, oldest first: each counted, each reported (R87, R91). The caller removes them. -/
def State.closeLost (s : State) (es : List LogEntry) : State := (s.countN .lost es.length).placeCompletions .lost es

/-! ### Replies (R140) -/

/-- A reply's body: tag, command, result, epoch, data (R140, 11.3). -/
def State.replyBody (s : State) (r : Request) (a : Answer) : List Byte :=
  [r.tag, r.commandOctet, a.result.octet, s.epoch] ++ a.data

/-- A frame the part builds, from the strapped address, tally fresh (R66, R140, R181). -/
def State.ownFrame (s : State) (da : Address) (kind : Byte) (info : List Byte) : OwnFrame :=
  ⟨⟨da, s.strapped, kind, Tally.fresh, info.length⟩, info⟩

/-- Places the reply on the link the request came from, and the request leaves the head (R140). -/
def State.reply (s : State) (r : Request) (a : Answer) : State :=
  match r.source with
  | .loop sa =>
    { s with own := s.own ++ [s.ownFrame sa kindReply (s.replyBody r a)], requests := s.requests.tail }
  | .station tag => { s with replies := s.replies ++ [⟨tag, s.replyBody r a⟩], requests := s.requests.tail }

/-- Carries out a request with `run`: the effects, then the reply (R140). -/
def State.carry (s : State) (r : Request) (run : Request → State → State × Answer) : State :=
  (run r s).1.reply r (run r s).2

/-- Carries out the head request with `run`, if the engine can carry it out and its command is `c`, or absent or unknown
for `none` (R136, R137). Otherwise the command's event does not occur (log entry 2). -/
def State.serve (s : State) (c : Option Command) (run : Request → State → State × Answer) : State :=
  match s.readyHead with
  | some r => if r.command = c then s.carry r run else s
  | none => s

/-- A refused command changes nothing (R138). -/
def State.deny (s : State) (r : Result) : State × Answer := (s, Answer.refusal r)

/-- Check 3 of R138, for a modifying command: without authority the result is NOT_AUTHORIZED (R139). -/
def State.ifAuthorized (s : State) (who : Requester) (run : State × Answer) : State × Answer :=
  if s.authorized who then run else s.deny .notAuthorized

/-! ### Aborts of the transmitters (R61, R65, R127) -/

/-- The loop transmitter after a RESTART: a frame on the line is aborted (R65). -/
def LoopTx.abort : LoopTx → LoopTx
  | .idle => .idle
  | .forwarding => .aborting
  | .inserting _ => .aborting
  | .aborting => .aborting

/-- The station port transmitter at a break: a report being sent is aborted (R129). -/
def PortTx.abort : PortTx → PortTx
  | .idle => .idle
  | .record => .aborting
  | .reply => .aborting
  | .delivery => .aborting
  | .aborting => .aborting

/-- The station port transmitter at RESTART: only a DELIVERY is aborted (R130). -/
def PortTx.abortDelivery : PortTx → PortTx
  | .delivery => .aborting
  | p => p

/-! ### The timer (R16) -/

/-- One millisecond passes: the timer rises by one and wraps; it stands at its start while reset is asserted (R16, log
entries 1 and 9). What `step` does when no command waits. -/
def State.tick (s : State) : State := if s.resetAsserted then s else { s with timer := s.timer + 1 }

end Sys2Proof.Machine
end

