-- ==== Sys2Proof/Machine/ReturnLog.lean ====
section
/-! DEFINITION. The return log (chapter 5): matching, loss, expiry, the returning frame's end, silence, flushing. -/

namespace Sys2Proof.Machine

/-- Splits the log at the oldest entry with the header's frame identity: older entries, the entry, newer (R86). -/
def splitMatch (h : Header) : List LogEntry → Option (List LogEntry × LogEntry × List LogEntry)
  | [] => none
  | e :: es =>
    if e.identifies h then some ([], e, es)
    else (splitMatch h es).map (fun p => (e :: p.1, p.2.1, p.2.2))

/-- A STRIP header (R86, R87, R88): the oldest match becomes RETURNING with the header's tally and the OUTSTANDING
entries older than it close LOST; with no match STRAY is counted. -/
def State.stripHeader (s : State) (h : Header) : State :=
  match splitMatch h s.log with
  | none => s.count .stray
  | some (older, e, newer) =>
    { s.closeLost (older.filter (fun x => x.isOutstanding)) with
      log := older.filter (fun x => !x.isOutstanding) ++ { e with state := .returning h.tally } :: newer }

/-- The outcome a frame end gives its RETURNING entry (R89, R90). -/
def closingOf (good : Bool) : LogState → Closing
  | .returning t => if good then .returned t else .damaged t
  | .outstanding => .lost

/-- The matched frame's end (R89, R90): the RETURNING entry closes, STRIPPED is counted, its report is placed. -/
def State.endReturning (s : State) (good : Bool) : State :=
  match s.log.find? (fun e => !e.isOutstanding) with
  | none => s
  | some e =>
    { (s.count .stripped).placeCompletions (closingOf good e.state) [e] with
      log := s.log.eraseP (fun e => !e.isOutstanding) }

/-- Splits the log into the entries that expire and those that stay: from the oldest OUTSTANDING entry on, each whose
deadline is reached; a RETURNING entry is passed over (R91). -/
def splitExpired (now : Word32) (timeout : Nat) : List LogEntry → List LogEntry × List LogEntry
  | [] => ([], [])
  | e :: es =>
    if e.isOutstanding then
      if deadlineReached now e.insertedAt timeout then
        (e :: (splitExpired now timeout es).1, (splitExpired now timeout es).2)
      else ([], e :: es)
    else ((splitExpired now timeout es).1, e :: (splitExpired now timeout es).2)

/-- The return deadline (R91). -/
def State.expireLog (s : State) : State :=
  let split := splitExpired s.timer s.params.returnTimeout s.log
  { s.closeLost split.1 with log := split.2 }

/-- A STATION entry at the start of a port break (R95). -/
def LogEntry.silence (e : LogEntry) : LogEntry := { e with silent := e.silent || decide (e.origin ≠ .own) }

/-- RESTART closes every entry FLUSHED, oldest first (R97). -/
def State.flushLog (s : State) : State := { s.placeCompletions .flushed s.log with log := [] }

/-- The entry an insertion start appends (R76, R83). -/
def State.newEntry (s : State) (origin : Origin) (h : Header) : LogEntry :=
  ⟨nextSeq s.logSeq s.log, origin, h.da, h.sa, h.kind, h.declared, s.timer, .outstanding, false⟩

/-- Appends an entry; the counter then stands one above the sequence taken (R76, R84). -/
def State.appendLog (s : State) (origin : Origin) (h : Header) : State :=
  { s with log := s.log ++ [s.newEntry origin h], logSeq := nextSeq s.logSeq s.log + 1 }

end Sys2Proof.Machine
end

