-- ==== Sys2Proof/Machine/Transit.lean ====
section
/-! DEFINITION. The transit path and the loop transmitter's ends (chapter 3): reservation, release, the frame's end, octets
sent, underrun, completion of a copy. The start of a copy is the arbiter's (Insertion.lean). -/

namespace Sys2Proof.Machine

/-- The tally with the verdict's mark added; a mark already set stays set (R38, R49). -/
def Tally.addMark (t : Tally) : Option Mark → Tally
  | none => t
  | some .claimed => { t with claimed := true }
  | some .refused => { t with refused := true }

/-- The rewritten header (R49): hops one greater, the verdict's mark added. -/
def Header.rewrite (h : Header) (marks : Option Mark) : Header :=
  { h with tally := Tally.addMark { h.tally with hops := h.tally.hops + 1 } marks }

/-- The new transit entry (R47, R51). -/
def TransitEntry.start (h : Header) (marks : Option Mark) : TransitEntry where
  reservation := 8 + h.declared
  header := h.rewrite marks
  info := []
  received := 8
  released := if h.declared = 0 then 7 else 8
  sent := 0
  status := .arriving
  sending := .no

/-- A forward verdict reaches the transit path (R47, R48): an entry joins the tail, or the refusal is counted and
raised with the frame's SA. -/
def State.reserveTransit (s : State) (h : Header) (marks : Option Mark) : State :=
  if s.transitRoom h.declared then { s with transit := s.transit ++ [TransitEntry.start h marks] }
  else (s.count .transitRefused).raise .transitRefused (.address h.sa)

/-- An info octet reaches the entry (R50, R51): it is stored and released, but the last is held back; an ABANDONED
entry does not store it. -/
def TransitEntry.takeOctet (v : Byte) (e : TransitEntry) : TransitEntry :=
  if e.sending = .abandoned then e
  else
    { e with info := e.info ++ [v], received := e.received + 1,
             released := if e.received + 1 < e.reservation then e.received + 1 else e.released }

/-- Changes the newest element of a list, where it satisfies `p`. -/
def modifyLast {α : Type} (p : α → Bool) (f : α → α) : List α → List α
  | [] => []
  | [a] => if p a then [f a] else [a]
  | a :: b :: l => a :: modifyLast p f (b :: l)

/-- The entry's frame is still arriving: its end status is NONE (R46). -/
def TransitEntry.arriving (e : TransitEntry) : Bool := decide (e.status = .arriving)

/-- The newest transit entry, if its frame is the one arriving (R50). -/
def State.arrivingTransit (s : State) : Option TransitEntry := (s.transit.getLast?).filter (fun e => e.arriving)

/-- The info octet event at the transit path (R50). -/
def State.transitOctet (s : State) (v : Byte) : State :=
  { s with transit := modifyLast TransitEntry.arriving (TransitEntry.takeOctet v) s.transit }

/-- The entry after a GOOD end (R52). -/
def TransitEntry.finish (e : TransitEntry) : TransitEntry := { e with status := .good, released := e.reservation }

/-- The frame-end event at the transit path. GOOD: the held-back octet is released (R52), an ABANDONED entry is removed
(R58). Otherwise the entry is removed, and a copy being sent is aborted (R53, R54, R58). -/
def State.endTransit (s : State) (good : Bool) : State :=
  match s.arrivingTransit with
  | none => s
  | some e =>
    match e.sending, good with
    | .abandoned, _ => { s with transit := s.transit.dropLast }
    | _, true => { s with transit := modifyLast TransitEntry.arriving TransitEntry.finish s.transit }
    | .no, false => { s with transit := s.transit.dropLast }
    | .yes, false => { s with transit := s.transit.dropLast, ltx := .aborting }

/-- The head's next octet goes downstream (R56): while its copy is being sent and an octet is released that has not been
sent, octets sent rises by one. -/
def TransitEntry.sendOctet (e : TransitEntry) : TransitEntry :=
  if e.sending = .yes ∧ e.sent < e.released then { e with sent := e.sent + 1 } else e

/-- One octet time of the loop transmitter: in FORWARDING the head's next octet goes (R56). -/
def State.octetTime (s : State) : State :=
  match s.ltx, s.transit with
  | .forwarding, e :: es => { s with transit := e.sendOctet :: es }
  | _, _ => s

/-- Octet times of the loop transmitter, one after another (R56). Which commands bring them is log entry 6's; a need beyond
the released octets is UNDERRUN's. -/
def State.octetTimes : Nat → State → State
  | 0, s => s
  | n + 1, s => State.octetTimes n s.octetTime

/-- The underrun of the head (R57): an octet is needed while octets sent equals octets released and the end status is NONE.
The abort begins; the entry is ABANDONED and stays, its figures as they are. -/
def State.underrun (s : State) : State :=
  match s.transit with
  | [] => s
  | e :: es =>
    if s.ltx = .forwarding ∧ e.sending = .yes ∧ e.status = .arriving ∧ e.sent = e.released then
      { (s.count .underrun).raise .underrun (.address e.header.sa) with
        transit := { e with sending := .abandoned } :: es, ltx := .aborting }
    else s

/-- The closing flag of the head's copy (R56). -/
def State.completeForward (s : State) : State :=
  match s.transit with
  | [] => s
  | e :: es =>
    if s.ltx = .forwarding ∧ e.sending = .yes ∧ e.status = .good then
      { s.count .forwarded with transit := es, ltx := .idle }
    else s

/-- The flag after an abort has been sent (R61). -/
def State.completeAbort (s : State) : State := if s.ltx = .aborting then { s with ltx := .idle } else s

end Sys2Proof.Machine
end

