-- ==== Sys2Proof/Machine/Delivery.lean ====
section
/-! DEFINITION. The delivery store (chapter 6). -/

namespace Sys2Proof.Machine

/-- The new delivery entry (R101): the header as received. -/
def DeliveryEntry.start (h : Header) : DeliveryEntry where
  reservation := 1 + 8 + h.declared
  header := h
  info := []
  copied := 8
  status := .arriving
  onPort := false

/-- The classifier asks for a reservation (R101, R102, R103): the take outcome and the store after it. `label` is the
verdict record's, the detail of a refusal's raise. -/
def State.reserveDelivery (s : State) (h : Header) (label : Option Byte) : Take × State :=
  if s.deliveryRoom h.declared then (.kept, { s with delivery := s.delivery ++ [DeliveryEntry.start h] })
  else
    (.refused, (s.count .deliveryRefused).raise .deliveryRefused
      (match label with
        | some l => .label l
        | none => .none))

/-- The entry's frame is still arriving (R100). -/
def DeliveryEntry.arriving (e : DeliveryEntry) : Bool := decide (e.status = .arriving)

/-- The newest delivery entry, if its frame is the one arriving (R104, R107). -/
def State.arrivingDelivery (s : State) : Option DeliveryEntry := (s.delivery.getLast?).filter (fun e => e.arriving)

/-- An info octet is copied (R104). -/
def DeliveryEntry.takeOctet (v : Byte) (e : DeliveryEntry) : DeliveryEntry :=
  { e with info := e.info ++ [v], copied := e.copied + 1 }

/-- The info octet event at the delivery store (R104). -/
def State.deliveryOctet (s : State) (v : Byte) : State :=
  { s with delivery := modifyLast DeliveryEntry.arriving (DeliveryEntry.takeOctet v) s.delivery }

/-- The frame-end event at the delivery store (R105, R106). -/
def State.endDelivery (s : State) (good : Bool) : State :=
  match s.arrivingDelivery with
  | none => s
  | some _ =>
    if good then
      { s with delivery := modifyLast DeliveryEntry.arriving (fun e => { e with status := .good }) s.delivery }
    else { s with delivery := s.delivery.dropLast }

/-- The head the store offers to the station port transmitter (R108). -/
def State.offeredDelivery (s : State) : Option DeliveryEntry :=
  (s.delivery.head?).filter (fun e => decide (e.status = .good) && !e.onPort)

end Sys2Proof.Machine
end

