-- ==== Sys2Proof/Machine/Classifier.lean ====
section
/-! DEFINITION. The classifier (chapter 2): the verdict procedure, the verdict record, and where the frame's later events
go. -/

namespace Sys2Proof.Machine

/-! ### Hit counts (R29) -/

/-- A matched entry's hit count rises, staying at 65,535 once there (R29). -/
def TableEntry.hit (e : TableEntry) : TableEntry := { e with hits := min (e.hits + 1) Config.maxHits }

/-! ### The verdict (R31, R43) -/

/-- What the verdict procedure finds at a header: the verdict, and the position of the matched entry for step 5. -/
structure Finding where
  verdict : Verdict
  position : Option Nat
  deriving DecidableEq, Repr

/-- An action as a verdict (R36, R37). -/
def Action.verdict : Action → Verdict
  | .pass => .pass
  | .copy => .copy
  | .drop => .drop

/-- Step 5 of R31: the matched entry's action, or DEFAULT_ACTION (R36, R37). -/
def State.findByTable (s : State) (h : Header) : Finding :=
  match lookup s.active h.da with
  | some p =>
    match s.active[p]? with
    | some e => ⟨e.rule.action.verdict, some p⟩
    | none => ⟨s.params.defaultAction.verdict, none⟩
  | none => ⟨s.params.defaultAction.verdict, none⟩

/-- The verdict procedure: R31 in SERVICE mode, steps 1 and 3 alone in REPEATER mode (R43). -/
def State.find (s : State) (h : Header) : Finding :=
  match s.mode with
  | .service =>
    if Config.maxInfo < h.declared then ⟨.badHeader, none⟩
    else if s.isIdentity h.sa then ⟨.strip, none⟩
    else if s.params.hopLimit ≤ h.tally.hops then ⟨.orphan, none⟩
    else if h.da = s.strapped ∧ h.kind = kindManage then ⟨.manage, none⟩
    else s.findByTable h
  | .repeater =>
    if Config.maxInfo < h.declared then ⟨.badHeader, none⟩
    else if s.params.hopLimit ≤ h.tally.hops then ⟨.orphan, none⟩
    else ⟨.pass, none⟩

/-- The matched entry of a finding, as the record copies it (R39). -/
def State.matched (s : State) (f : Finding) : Option TableEntry := f.position.bind (fun p => s.active[p]?)

/-- The mark a take outcome adds (R38). -/
def Take.mark : Take → Mark
  | .kept => .claimed
  | .refused => .refused

/-- A record for an absorbed or stripped frame (R39). -/
def VerdictRecord.absorbed (v : Verdict) (e : Option TableEntry) : VerdictRecord :=
  ⟨v, e.map (fun x => x.rule.label), e.map (fun x => x.rule.policy), false, false, none, none⟩

/-- The record of a PASS (R36, R37, R39, R43). -/
def VerdictRecord.passed (e : Option TableEntry) : VerdictRecord :=
  ⟨.pass, e.map (fun x => x.rule.label), e.map (fun x => x.rule.policy), true, false, none, none⟩

/-- The record of a MANAGE (R35, R39). -/
def VerdictRecord.managed (t : Take) : VerdictRecord := ⟨.manage, none, none, true, false, some t, some t.mark⟩

/-- The record of a COPY: a QUIET entry adds no mark (R36, R37, R38, R39). -/
def VerdictRecord.copied (e : Option TableEntry) (t : Take) : VerdictRecord :=
  ⟨.copy, e.map (fun x => x.rule.label), e.map (fun x => x.rule.policy), true, true, some t,
    if e.map (fun x => x.rule.policy) = some .quiet then none else some t.mark⟩

/-- The hit count of the matched entry rises at the header (R29). -/
def State.hitMatched (s : State) (f : Finding) : State :=
  match f.position with
  | some p => { s with active := s.active.modify p TableEntry.hit }
  | none => s

/-! ### Offering a request (R35, R134) -/

/-- The classifier offers a loop request (R35, R134): it joins incomplete, or MGMT_DROPPED is counted. -/
def State.offerRequest (s : State) (sa : Address) : Take × State :=
  if s.requests.length < Config.requestPlaces then
    (.kept, { s with requests := s.requests ++ [⟨.loop sa, [], false⟩] })
  else (.refused, s.count .mgmtDropped)

/-! ### The header-complete event (R30, R40) -/

/-- Acts on a finding (R32 to R40): counts and raises, asks for the reservations, hands the record to the transit path
or the header to the return log, and holds the record as the current verdict. -/
def State.judgeHeader (s : State) (h : Header) (f : Finding) : State :=
  let e := s.matched f
  match f.verdict with
  | .badHeader => { s.count .badHeader with verdict := some (.absorbed .badHeader none) }
  | .strip => { s.stripHeader h with verdict := some (.absorbed .strip none) }
  | .orphan =>
    { (s.count .orphaned).raise .orphan (.address h.sa) with verdict := some (.absorbed .orphan none) }
  | .manage =>
    let r := s.offerRequest h.sa
    { r.2.reserveTransit h (some r.1.mark) with verdict := some (.managed r.1) }
  | .pass => { (s.hitMatched f).reserveTransit h none with verdict := some (.passed e) }
  | .copy =>
    let r := (s.hitMatched f).reserveDelivery h (e.map (fun x => x.rule.label))
    let v := VerdictRecord.copied e r.1
    { r.2.reserveTransit h v.marks with verdict := some v }
  | .drop => { (s.hitMatched f).count .dropped with verdict := some (.absorbed .drop e) }

/-- The header-complete event (R7, R30). -/
def State.headerComplete (s : State) (h : Header) : State := s.judgeHeader h (s.find h)

/-! ### Octet and frame-end events (R8, R9, R40, R134) -/

/-- A loop request that still collects its octets (R134). -/
def Request.collecting (r : Request) : Bool := r.isLoop && !r.complete

/-- The management engine takes an info octet of a request (R134). -/
def State.requestOctet (s : State) (v : Byte) : State :=
  { s with requests := s.requests.map (fun r => if r.collecting then { r with octets := r.octets ++ [v] } else r) }

/-- The end of a loop request's frame (R134): complete at GOOD, removed otherwise. -/
def State.endRequest (s : State) (good : Bool) : State :=
  if good then
    { s with requests := s.requests.map (fun r => if r.collecting then { r with complete := true } else r) }
  else { s with requests := s.requests.filter (fun r => !r.collecting) }

/-- The record keeps a request (R40). -/
def VerdictRecord.keepsRequest (r : VerdictRecord) : Bool := decide (r.verdict = .manage ∧ r.take = some .kept)

/-- The record keeps a delivery copy (R40). -/
def VerdictRecord.keepsCopy (r : VerdictRecord) : Bool := decide (r.verdict = .copy ∧ r.take = some .kept)

/-- The octet event of an info octet, to the blocks the verdict engaged (R8, R40). -/
def State.infoOctet (s : State) (v : Byte) : State :=
  match s.verdict with
  | none => s
  | some r =>
    let s := if r.forward then s.transitOctet v else s
    let s := if r.keepsCopy then s.deliveryOctet v else s
    if r.keepsRequest then s.requestOctet v else s

/-- The blocks the verdict engaged close their part of the frame (R9, R40). -/
def State.endBlocks (s : State) (good : Bool) : State :=
  match s.verdict with
  | none => s
  | some r =>
    let s := if r.forward then s.endTransit good else s
    let s := if r.keepsCopy then s.endDelivery good else s
    let s := if r.keepsRequest then s.endRequest good else s
    if r.verdict = .strip then s.endReturning good else s

/-- The frame end is GOOD. -/
def EndCond.isGood (c : EndCond) : Bool := decide (c = .good)

/-- The frame-end event (R9, R15, R17, R30): the blocks close, a bad end is counted as RX_BAD and clears the flag
marker, the record is released. -/
def State.frameEnd (s : State) (c : EndCond) : State :=
  let s := s.endBlocks c.isGood
  let s := { s with verdict := none }
  if c.isGood then s else { s.count .rxBad with sup := { s.sup with marker := false } }

end Sys2Proof.Machine
end

