-- ==== Sys2Proof/Machine/LoopReceive.lean ====
section
/-! DEFINITION. The loop receiver and the line supervisor (chapter 1). -/

namespace Sys2Proof.Machine

/-- The receiver leaves a frame or the space between frames for HUNT; the collector is empty there (R3). -/
def LoopRx.toHunt (rx : LoopRx) : LoopRx := { rx with state := .hunt, collector := [] }

/-- The receiver's frame, if it is in FRAME. -/
def RxState.frame? : RxState → Option RxFrame
  | .frame f => some f
  | _ => none

/-! ### Octets (R3, R4, R5, R13) -/

/-- What a completed octet in FRAME does (R5): the excess octet ends the frame LENGTH and the receiver hunts (R13); else
it is taken, the eighth issues the header-complete event (R7), an info octet its octet event (R8). -/
def State.frameOctet (s : State) (f : RxFrame) (v : Byte) : State :=
  if f.atExcess 0 then
    let s := s.frameEnd .length
    { s with rx := s.rx.toHunt }
  else
    let f' := f.push 0 v
    let s := { s with rx := { s.rx with state := .frame f' } }
    if f'.count = 8 then s.headerComplete (Header.ofOctets 0 f'.head)
    else if f'.tookInfo 0 then s.infoOctet v
    else s

/-- An octet completes on the loop receive line (R1, R3, R4, R5): the run count is 0 at the zero that settled it, and the
collector holds the bits beyond it; in HUNT it stays empty. -/
def State.loopOctet (s : State) (v : Byte) (rest : List Bool) : State :=
  match s.rx.state with
  | .hunt => { s with rx := ⟨.hunt, 0, []⟩ }
  | .fill => { s with rx := ⟨.frame (RxFrame.empty.push 0 v), 0, rest⟩ }
  | .frame f => { s with rx := ⟨.frame f, 0, rest⟩ }.frameOctet f v

/-! ### Flags (R2 to R5, R12, R17, R19) -/

/-- The condition of the frame a flag ends, if it ends one (R12); `tail` is what the collector holds at the flag, its first
zero taken back out (R2). -/
def State.flagEnds (s : State) (tail : List Bool) : Option EndCond :=
  s.rx.state.frame?.map (fun f => f.judge 0 (decide (tail ≠ [])))

/-- The supervisor takes a flag that ended a frame with `c`, or none (R17, R19). `s` is the state after that frame end, so
that the marker is read after any clearing by it and before this flag's own update. -/
def State.superviseFlag (s : State) (c : Option EndCond) : State :=
  let sup := { s.sup with lastFlag := s.timer, marker := decide (c = none ∨ c = some .good) }
  if s.sup.line = .down ∧ (s.sup.marker ∨ c = some .good) then
    { s with sup := { sup with line := .up } }.raise .lineUp (.time s.sup.downAt)
  else { s with sup := sup }

/-- A flag is recognised on the loop receive line (R2 to R5, R12, R17, R19). -/
def State.loopFlag (s : State) (tail : List Bool) : State :=
  let c := s.flagEnds tail
  let s := match c with
    | some c => s.frameEnd c
    | none => s
  { s with rx := ⟨.fill, 0, []⟩ }.superviseFlag c

/-! ### Aborts, idle, silence (R3, R4, R14, R17, R18) -/

/-- A frame in FRAME ends ABORTED (R14). -/
def State.abortFrame (s : State) (reason : AbortReason) : State :=
  match s.rx.state with
  | .frame _ => s.frameEnd (.aborted reason)
  | _ => s

/-- Ones that end whatever the receiver was in: HUNT, the flag marker clear, the run count at `run` (R3, R4, R14, R17). -/
def State.loopOnes (s : State) (run : Nat) : State :=
  let s := s.abortFrame .abort
  { s with rx := ⟨.hunt, run, []⟩, sup := { s.sup with marker := false } }

/-- The silence deadline is reached on an UP line (R16, R18). -/
def State.silenceReached (s : State) : Bool :=
  decide (s.sup.line = .up) && deadlineReached s.timer s.sup.lastFlag s.params.lineSilence

/-- The line goes DOWN (R14, R18). The NOTICE COPY of LINE_DOWN joins the report queue before the COMPLETION report of a
returning frame that ends here: DESIGN CHOICE, log entry 18. -/
def State.lineDown (s : State) : State :=
  let s := s.raise .lineDown (.time s.sup.lastFlag)
  let s := s.abortFrame .silence
  { s with rx := s.rx.toHunt, sup := { s.sup with line := .down, downAt := s.timer, marker := false } }

/-- The silence deadline (R18). -/
def State.silence (s : State) : State := if s.silenceReached then s.lineDown else s

end Sys2Proof.Machine
end

