-- ==== Sys2Proof/Machine/Insertion.lean ====
section
/-! DEFINITION. The insertion arbiter (chapter 4): its choice at the end of a flag, the start and the end of an insertion. -/

namespace Sys2Proof.Machine

/-- The header a station frame is sent with: its tally is replaced at insertion start (R68, R75). -/
def StationFrame.header (f : StationFrame) : Header := ⟨f.da, f.sa, f.kind, Tally.fresh, f.declared⟩

/-- The fairness count at an insertion from the own output queue or the URGENT queue (R73). -/
def State.fairnessAfter (s : State) : Nat :=
  if s.normal = [] then s.fairness else min (s.fairness + 1) Config.maxFairness

/-- A queue goes from full to not full: a cause of PORT STATUS (R69, R123). -/
def State.causeIfWasFull (s : State) (before : Nat) : State := if before = Config.classFrames then s.causeStatus else s

/-- The own output head's insertion starts (R75, R76). -/
def State.startOwn (s : State) (f : OwnFrame) (rest : List OwnFrame) : State :=
  { s.appendLog .own f.header with own := rest, fairness := s.fairnessAfter, ltx := .inserting (.own f) }

/-- The URGENT head's insertion starts (R69, R75, R76). -/
def State.startUrgent (s : State) (f : StationFrame) (rest : List StationFrame) : State :=
  { s.appendLog (.station f.tag f.cls) f.header with
    urgent := rest, fairness := s.fairnessAfter, ltx := .inserting (.station f) }.causeIfWasFull s.urgent.length

/-- The NORMAL head's insertion starts (R69, R73, R75, R76). -/
def State.startNormal (s : State) (f : StationFrame) (rest : List StationFrame) : State :=
  { s.appendLog (.station f.tag f.cls) f.header with
    normal := rest, fairness := 0, ltx := .inserting (.station f) }.causeIfWasFull s.normal.length

/-- The own output head, if its gate is open (R71, R72). -/
def State.tryOwn (s : State) : Option State :=
  match s.own with
  | f :: rest => if s.logGate then some (s.startOwn f rest) else none
  | [] => none

/-- The URGENT head, if its gates are open (R71, R72). -/
def State.tryUrgent (s : State) : Option State :=
  match s.urgent with
  | f :: rest => if s.logGate && s.budgetGate then some (s.startUrgent f rest) else none
  | [] => none

/-- The NORMAL head, if its gates are open (R71, R72). -/
def State.tryNormal (s : State) : Option State :=
  match s.normal with
  | f :: rest => if s.logGate && s.budgetGate then some (s.startNormal f rest) else none
  | [] => none

/-- The candidates in their order (R72, R74): the first whose gates are open starts; if none passes, nothing starts. -/
def State.insert (s : State) : State :=
  if s.fairnessExcepts then ((s.tryNormal.or s.tryOwn).or s.tryUrgent).getD s
  else ((s.tryOwn.or s.tryUrgent).or s.tryNormal).getD s

/-- The arbiter's choice at the end of a flag in IDLE (R70): a transit head that meets the start condition begins its
copy, one that does not holds back everything, and with no transit entry an insertion may begin. -/
def State.arbitrate (s : State) : State :=
  if s.ltx = .idle then
    match s.transit with
    | e :: es =>
      if e.mayStart s.params.cutLead then
        { s with transit := { e with sending := .yes } :: es, ltx := .forwarding }
      else s
    | [] => s.insert
  else s

/-- The closing flag of an inserted frame (R69, R77): INSERTED is counted; the reservation frees with the state. -/
def State.endInsertion (s : State) : State :=
  match s.ltx with
  | .inserting _ => { s.count .inserted with ltx := .idle }
  | _ => s

end Sys2Proof.Machine
end

