-- ==== Sys2Proof/Machine/StationPort.lean ====
section
/-! DEFINITION. The station port (chapter 7): its receiver, acceptance, the transmitter, breaks. -/

namespace Sys2Proof.Machine

/-! ### The receiver (R115, R116) -/

/-- Line bits pass the station receiver's two runs (R115, R116). -/
def StationRx.pass (rx : StationRx) (bits : List Bool) : StationRx :=
  { rx with run := onesAfter rx.run bits, zeroRun := zerosAfter rx.zeroRun bits }

/-- The receiver after a flag: FILL, the collector empty; a flag ends in one zero (R115, R116). -/
def StationRx.flag (rx : StationRx) : StationRx := { rx with state := .fill, run := 0, zeroRun := 1, collector := [] }

/-- The receiver in HUNT after `ones` consecutive ones (R115, R116). -/
def StationRx.ones (rx : StationRx) (ones : Nat) : StationRx :=
  { rx with state := .hunt, run := ones, zeroRun := 0, collector := [] }

/-- The line bits of an octet that completes: those of its bits not yet in the collector and of the bits settled beyond it
(R1, R115). -/
def StationRx.octetLine (rx : StationRx) (v : Byte) (rest : List Bool) : List Bool :=
  bitsBringing rx.run ((octetBits v).drop rx.collector.length ++ rest)

/-- An octet completes: its line bits have passed the zero run; the run count of ones is 0 at the zero that settled them
(R1, R115, R116). -/
def StationRx.passOctet (rx : StationRx) (v : Byte) (rest : List Bool) : StationRx :=
  { rx with run := 0, zeroRun := zerosAfter rx.zeroRun (rx.octetLine v rest), collector := rest }

/-- The info octets kept in the receive buffer: those beyond the 512th are not kept (R115). -/
def keepInfo (f : RxFrame) (info : List Byte) (v : Byte) : List Byte :=
  if f.tookInfo 1 ∧ info.length < Config.maxInfo then info ++ [v] else info

/-- An octet that is not excess is kept and counted; in HUNT the collector stays empty (R3, R115). -/
def StationRx.take (rx : StationRx) (v : Byte) : StationRx :=
  match rx.state with
  | .hunt => { rx with collector := [] }
  | .fill => { rx with state := .frame (RxFrame.empty.push 1 v) [] }
  | .frame f info => { rx with state := .frame (f.push 1 v) (keepInfo (f.push 1 v) info v) }

/-- The octet now completing is the excess octet (R115). -/
def StationRx.atExcess (rx : StationRx) : Bool :=
  match rx.state with
  | .frame f _ => f.atExcess 1
  | _ => false

/-! ### The start of a break (R116, R129) -/

/-- The session after a break: one owned by STATION is closed (R174). -/
def sessionAfterBreak : Option Session → Option Session
  | some x => if x.owner = .station then none else some x
  | none => none

/-- The effects of the start of a break (R95, R111, R129, R155, R174). -/
def State.breakEffects (s : State) : State :=
  { s with
    port := .break
    ptx := s.ptx.abort
    reports := []
    statusHeld := false
    replies := []
    delivery := []
    urgent := []
    normal := []
    log := s.log.map LogEntry.silence
    requests := s.requests.filter (fun r => r.isLoop)
    session := sessionAfterBreak s.session
    discarded := 0
    flushed := 0 }

/-- A break begins (R116): the port is ACTIVE, the receiver in HUNT, and the zero run at 32 or more. -/
def State.breakBegins (s : State) : Bool :=
  decide (s.port = .active ∧ s.srx.state = .hunt ∧ Config.breakRun ≤ s.srx.zeroRun)

/-- A break on entering HUNT with a zero run of 32 or more (R116). -/
def State.breakInHunt (s : State) : State := if s.breakBegins then s.breakEffects else s

/-- Line bits bring the zero run to 32, at their end or among them, while the port is ACTIVE and the receiver in HUNT
(R116). -/
def State.breakWithin (s : State) (bits : List Bool) : Bool :=
  decide (s.port = .active ∧ s.srx.state = .hunt ∧ Config.breakRun ≤ zeroPeak s.srx.zeroRun bits)

/-- Line bits in HUNT that bring the zero run to 32 (R116). Bits that do not are no event (log entry 2). -/
def State.startBreak (s : State) (bits : List Bool) : State :=
  if s.breakWithin bits then { s with srx := s.srx.pass bits }.breakEffects else s

/-! ### Octets, flags and aborts outside a frame's end (R115) -/

/-- A frame ends LENGTH at its excess octet: it is discarded and the receiver hunts, where a zero run of 32 or more begins
a break at once (R115, R116, R121). -/
def State.stationExcess (s : State) (v : Byte) (rest : List Bool) : State :=
  { s with srx := { s.srx.passOctet v rest with state := .hunt, collector := [] } }.discard.breakInHunt

/-- An octet completes on the station receive line (R115); the excess octet ends the frame (log entry 12), and in HUNT the
zero run may reach 32 at one of its bits (R116). -/
def State.stationOctet (s : State) (v : Byte) (rest : List Bool) : State :=
  if s.srx.atExcess then s.stationExcess v rest
  else
    let t := { s with srx := (s.srx.passOctet v rest).take v }
    if s.breakWithin (s.srx.octetLine v rest) then t.breakEffects else t

/-- A flag that ends no frame, while the port is ACTIVE (R115): FILL, the bits before it discarded. In FRAME the flag would
end the frame, and in BREAK it would end the break: those are other commands (log entry 2). -/
def State.stationFlag (s : State) : State :=
  match s.port, s.srx.state with
  | .active, .hunt => { s with srx := s.srx.flag }
  | .active, .fill => { s with srx := s.srx.flag }
  | _, _ => s

/-- An abort or line idle outside a frame (R115): the collector is discarded, the receiver hunts. In FRAME it would end the
frame, which is STATION_FRAME_DISCARD (log entry 2). -/
def State.stationAbort (s : State) (idle : Bool) : State :=
  match s.srx.state with
  | .frame _ _ => s
  | _ => { s with srx := s.srx.ones (if idle then 15 else 7) }

/-! ### Acceptance (R118 to R121) -/

/-- What the receive buffer holds of a frame, as the acceptance checks read it (R114, R118). -/
structure StationSubmission where
  tag : Tag
  cls : StationClass
  header : Header
  info : List Byte
  deriving DecidableEq, Repr

/-- Reads the receive buffer: the port octet, the header, the info (R114, 11.2). -/
def submissionOf (f : RxFrame) (info : List Byte) : StationSubmission :=
  ⟨tagOf (f.head.getD 0 0), classOf (f.head.getD 0 0), Header.ofOctets 1 f.head, info⟩

/-- The queued frame (R68, R119); the tally is not kept. -/
def StationSubmission.frame (m : StationSubmission) : StationFrame :=
  ⟨m.tag, m.cls, m.header.da, m.header.sa, m.header.kind, m.header.declared, m.info⟩

/-- The frame joins the tail of its class queue (R119); a NORMAL queue that was empty sets the fairness count to 0 (R73). -/
def State.enqueue (s : State) (m : StationSubmission) : State :=
  match m.cls with
  | .urgent => { s with urgent := s.urgent ++ [m.frame] }
  | .normal =>
    { s with normal := s.normal ++ [m.frame], fairness := if s.normal = [] then 0 else s.fairness }

/-- A local request is offered to the request queue (R120, R135). -/
def State.offerLocal (s : State) (m : StationSubmission) : State :=
  if s.requests.length < Config.requestPlaces then
    { s with requests := s.requests ++ [⟨.station m.tag, m.info, true⟩] }
  else (s.count .mgmtDropped).refuse m.tag m.cls .queueFull

/-- The acceptance checks at the GOOD end (R118). -/
def State.accept (s : State) (m : StationSubmission) : State :=
  if s.mode = .repeater then s.refuse m.tag m.cls .notInService
  else if Config.maxInfo < m.header.declared then s.refuse m.tag m.cls .badHeader
  else if m.header.da = s.strapped ∧ m.header.kind = kindManage then s.offerLocal m
  else if !s.isIdentity m.header.sa then s.refuse m.tag m.cls .badSource
  else if s.stationFull m.cls m.header.declared then s.refuse m.tag m.cls .queueFull
  else s.enqueue m

/-- The closing flag of a GOOD frame (R115, R118). A frame that the flag does not find GOOD is not this command's (log
entry 2). -/
def State.stationGood (s : State) : State :=
  match s.srx.state with
  | .frame f info =>
    if f.judge 1 false = .good then
      { s with srx := s.srx.flag }.accept (submissionOf f info)
    else s
  | _ => s

/-- A station frame ends in error (R115, R121): at a closing flag that finds it not GOOD, at its excess octet, or at the
seventh one. Where the frame would not end so, the event does not occur (log entry 2). -/
def State.stationDiscard (s : State) (how : StationEnd) : State :=
  match s.srx.state with
  | .frame f _ =>
    match how with
    | .flag tail =>
      if f.judge 1 (decide (tail ≠ [])) = .good then s else { s with srx := s.srx.flag }.discard
    | .excess v rest => if f.atExcess 1 then s.stationExcess v rest else s
    | .abort => { s with srx := s.srx.ones 7 }.discard
  | _ => s

/-! ### The transmitter (R124, R127, R128) -/

/-- A PORT STATUS takes its contents as its sending begins (R124). -/
def Report.begin (p : PortStatus) : Report → Report
  | .portStatus none => .portStatus (some p)
  | r => r

/-- The oldest record begins (R124, R128): a PORT STATUS takes its contents and both counts fall to 0. -/
def State.beginRecord (s : State) (r : Report) (rest : List Report) : State :=
  if r.isWaitingStatus then
    { s with reports := r.begin s.portStatus :: rest, discarded := 0, flushed := 0, ptx := .record }
  else { s with ptx := .record }

/-- The choice at the end of a flag in IDLE (R108, R128): the oldest record, else the oldest REPLY, else the delivery
head if the store offers it. -/
def State.portChoice (s : State) : State :=
  if s.ptx = .idle then
    match s.reports, s.replies, s.offeredDelivery with
    | r :: rest, _, _ => s.beginRecord r rest
    | [], _ :: _, _ => { s with ptx := .reply }
    | [], [], some e => { s with delivery := { e with onPort := true } :: s.delivery.tail, ptx := .delivery }
    | [], [], none => s
  else s

/-- The head record has been sent (R94, R122, R123, R128): it leaves, and a held PORT STATUS takes the place of a shared
record at once. -/
def State.recordSent (s : State) : State :=
  match s.reports with
  | [] => { s with ptx := .idle }
  | r :: rest =>
    if !r.isCompletion && s.statusHeld then
      { s with reports := rest ++ [.portStatus none], statusHeld := false, ptx := .idle }
    else { s with reports := rest, ptx := .idle }

/-- The closing flag of the report being sent (R110, R126, R128). -/
def State.reportSent (s : State) : State :=
  match s.ptx with
  | .record => s.recordSent
  | .reply => { s with replies := s.replies.tail, ptx := .idle }
  | .delivery => { s.count .delivered with delivery := s.delivery.tail, ptx := .idle }
  | _ => s

/-- The flag after an abort has been sent (R127). -/
def State.portAbortSent (s : State) : State := if s.ptx = .aborting then { s with ptx := .idle } else s

/-- A flag while the port is in BREAK (R117). -/
def State.endBreak (s : State) : State :=
  if s.port = .break then { s with port := .active, srx := s.srx.flag }.causeStatus else s

end Sys2Proof.Machine
end

