-- ==== Sys2Proof/Machine/Notices.lean ====
section
/-! DEFINITION. The notice unit's sending (chapter 10): first sends, resend deadlines, resends. -/

namespace Sys2Proof.Machine

/-- A NOTICE frame's body (11.5). -/
def State.noticeBody (s : State) (k : NoticeKind) (seq : Byte) (occurrences : Nat) (d : Detail) : List Byte :=
  [oct (noticeCode k), seq, oct occurrences, s.epoch] ++ be32 s.timer ++ d.octets

/-- Places a NOTICE frame of a kind at the tail of the own output queue (R181). -/
def State.placeNotice (s : State) (k : NoticeKind) (seq : Byte) (occurrences : Nat) (d : Detail) : State :=
  { s with own := s.own ++ [s.ownFrame s.params.noticeDest kindNotice (s.noticeBody k seq occurrences d)] }

/-- Sets the slot of a kind. -/
def State.setSlot (s : State) (k : NoticeKind) (x : Slot) : State := { s with slots := s.slots.set (noticeCode k) x }

/-- The slot right after its first send (R181). -/
def State.firstSent (s : State) (occurrences : Nat) (d : Detail) : Slot :=
  .outstanding ⟨occurrences, 0, s.noticeSeq, 1, some (s.timer, s.params.noticeRetry), d⟩

/-- The first send of a PENDING slot (R181). -/
def State.firstSend (s : State) (k : NoticeKind) : State :=
  match s.slot k with
  | .pending occ d =>
    { (s.placeNotice k s.noticeSeq occ d).setSlot k (s.firstSent occ d) with noticeSeq := s.noticeSeq + 1 }
  | _ => s

/-- A sendable slot is sent when a place is free (R180, R182). -/
def State.sendFirst (s : State) : State :=
  match s.sendable with
  | some k => if s.ownPlace then s.firstSend k else s
  | none => s

/-- The slot right after a resend (R183): the same sequence, one more send, a new deadline. -/
def State.resent (s : State) (n : OutNotice) : Slot :=
  .outstanding { n with sends := n.sends + 1, sinceSend := 0, deadline := some (s.timer, s.params.noticeRetry) }

/-- A resend of an OUTSTANDING slot is placed (R183). -/
def State.resend (s : State) (k : NoticeKind) (n : OutNotice) : State :=
  (s.placeNotice k n.seq n.occurrences n.detail).setSlot k (s.resent n)

/-- The resend deadline of a slot (R183): with sends made above NOTICE_RETRIES the notice is abandoned; otherwise its resend
is due and takes its place with the notice unit's turn at the event's end, or waits with the deadline absent. -/
def State.retryDeadline (s : State) (k : NoticeKind) : State :=
  match s.slot k with
  | .outstanding n =>
    match n.deadline with
    | some (start, interval) =>
      if deadlineReached s.timer start interval then
        if n.sends ≤ s.params.noticeRetries then s.setSlot k (.outstanding { n with deadline := none })
        else (s.setSlot k .idle).count .noticesAbandoned
      else s
    | none => s
  | _ => s

/-- The waiting resend of a kind is placed if it may take a place (R182, R183). -/
def State.resendOf (s : State) (k : NoticeKind) : State :=
  match s.slot k with
  | .outstanding n => if n.deadline.isNone && s.resendPlace k then s.resend k n else s
  | _ => s

/-- The waiting resends are placed as places allow, the highest priority first (R182). -/
def State.resendWaiting (s : State) : State := noticeKinds.foldl State.resendOf s

/-- The notice unit takes its places at the end of an event (R182): a sendable slot's first send goes before every waiting
resend. At most one first send is made, because a slot just sent is OUTSTANDING (R180). -/
def State.placeNotices (s : State) : State := s.sendFirst.resendWaiting

end Sys2Proof.Machine
end

