-- ==== Sys2Proof/Machine/TableEdit.lean ====
section
/-! DEFINITION. Table editing sessions (chapter 9). Each session command is carried out over the head request (R136). -/

namespace Sys2Proof.Machine

/-- A staged copy of an active table, each entry with its position as origin (R160). -/
def stageFrom (n : Nat) : List TableEntry → List StagedEntry
  | [] => []
  | e :: es => ⟨e.rule, some n⟩ :: stageFrom (n + 1) es

/-- The hit count a staged entry would take at a commit made now (R150, R167). -/
def hitsOfOrigin (active : List TableEntry) : Option Nat → Nat
  | none => 0
  | some o => ((active[o]?).map (fun e => e.hits)).getD 0

/-- The active table a commit installs (R166, R167). -/
def commitTable (active : List TableEntry) (staged : List StagedEntry) : List TableEntry :=
  staged.map (fun e => ⟨e.rule, hitsOfOrigin active e.origin⟩)

/-- The number of staged entries as reply data (11.3). -/
def Session.countData (x : Session) : List Byte := [oct x.staged.length]

/-- Checks S1 and S2 of R161, after check 3: without a session NO_SESSION, with another's SESSION_BUSY and its owner; the
owner's command refreshes the deadline, whatever becomes of it. -/
def State.asOwner (s : State) (who : Requester) (run : Session → State → State × Answer) : State × Answer :=
  s.ifAuthorized who
    (match s.session with
    | none => s.deny .noSession
    | some x =>
      if x.owner = who.owner then
        run { x with lastCommand := s.timer } { s with session := some { x with lastCommand := s.timer } }
      else (s, ⟨.sessionBusy, x.owner.octets⟩))

/-- SESSION OPEN (R162). -/
def State.runSessionOpen (r : Request) (s : State) : State × Answer :=
  s.ifAuthorized r.source
    (match s.session with
    | none =>
      let x : Session := ⟨r.source.owner, stageFrom 0 s.active, s.timer⟩
      ({ s with session := some x }, .ok (x.owner.octets ++ x.countData))
    | some x =>
      if x.owner = r.source.owner then
        ({ s with session := some { x with lastCommand := s.timer } }, .ok (x.owner.octets ++ x.countData))
      else (s, ⟨.sessionBusy, x.owner.octets⟩))

/-- The staged table after an edit, with its new number of entries as reply data (R163, R164, R165). -/
def State.edited (s : State) (x : Session) (staged : List StagedEntry) : State × Answer :=
  ({ s with session := some { x with staged := staged } }, .ok [oct staged.length])

/-- The key of a new entry equals a staged entry's, other than at position `skip` (R26, R161 check S6). -/
def duplicates (staged : List StagedEntry) (skip : Option Nat) (k : Key) : Bool :=
  (List.range staged.length).any
    (fun i => decide (some i ≠ skip) && decide ((staged[i]?).map (fun e => e.rule.key) = some k))

/-- ENTRY INSERT's effect, S3 to S6 first (R161, R163). -/
def State.insertEntry (s : State) (x : Session) (position : Nat) (rule : Option Rule) : State × Answer :=
  match rule with
  | none => s.deny .badOperand
  | some r =>
    if Config.tableEntries ≤ x.staged.length then s.deny .tableFull
    else if x.staged.length < position then s.deny .noEntry
    else if duplicates x.staged none r.key then s.deny .duplicate
    else s.edited x (x.staged.insertIdx position ⟨r, none⟩)

/-- ENTRY REPLACE's effect, S3 to S6 first (R161, R164). -/
def State.replaceEntry (s : State) (x : Session) (position : Nat) (rule : Option Rule) : State × Answer :=
  match rule with
  | none => s.deny .badOperand
  | some r =>
    if x.staged.length ≤ position then s.deny .noEntry
    else if duplicates x.staged (some position) r.key then s.deny .duplicate
    else s.edited x (x.staged.set position ⟨r, none⟩)

/-- ENTRY REMOVE's effect, S5 first (R161, R165). -/
def State.removeEntry (s : State) (x : Session) (position : Nat) : State × Answer :=
  if x.staged.length ≤ position then s.deny .noEntry else s.edited x (x.staged.eraseIdx position)

/-- SESSION COMMIT's effect (R166, R168). -/
def State.commitSession (s : State) (x : Session) : State × Answer :=
  ({ s with active := commitTable s.active x.staged, epoch := s.epoch + 1, session := none }, .ok x.countData)

/-- SESSION DISCARD's effect (R169). -/
def State.discardSession (s : State) : State × Answer := ({ s with session := none }, .ok [])

/-- ENTRY INSERT over its operands; check 2 first (R138, 11.3, 11.4). -/
def State.runEntryInsert (r : Request) (s : State) : State × Answer :=
  match r.operands with
  | p :: form :: g :: lo :: hi :: act :: pol :: lab :: _ :: _ :: _ =>
    s.asOwner r.source (fun x s => s.insertEntry x p.toNat (readRule form g lo hi act pol lab))
  | _ => s.deny .badOperand

/-- ENTRY REPLACE over its operands (R138, 11.3, 11.4). -/
def State.runEntryReplace (r : Request) (s : State) : State × Answer :=
  match r.operands with
  | p :: form :: g :: lo :: hi :: act :: pol :: lab :: _ :: _ :: _ =>
    s.asOwner r.source (fun x s => s.replaceEntry x p.toNat (readRule form g lo hi act pol lab))
  | _ => s.deny .badOperand

/-- ENTRY REMOVE over its operand (R138, 11.3). -/
def State.runEntryRemove (r : Request) (s : State) : State × Answer :=
  match r.operands with
  | p :: _ => s.asOwner r.source (fun x s => s.removeEntry x p.toNat)
  | _ => s.deny .badOperand

/-- SESSION COMMIT (R166). -/
def State.runSessionCommit (r : Request) (s : State) : State × Answer :=
  s.asOwner r.source (fun x s => s.commitSession x)

/-- SESSION DISCARD (R169). -/
def State.runSessionDiscard (r : Request) (s : State) : State × Answer :=
  s.asOwner r.source (fun _ s => s.discardSession)

/-- The session deadline (R170): the session closes and SESSION_EXPIRED is raised with the owner. -/
def State.expireSession (s : State) : State :=
  match s.session with
  | none => s
  | some x =>
    if deadlineReached s.timer x.lastCommand s.params.sessionTimeout then
      { s with session := none }.raise .sessionExpired x.owner.detail
    else s

end Sys2Proof.Machine
end

