-- ==== Sys2Proof/Machine/Management.lean ====
section
/-! DEFINITION. What each management command of chapter 8, and NOTICE ACK, does and answers, over a request that the engine
carries out (R136 to R140). -/

namespace Sys2Proof.Machine

/-! ### BAD_COMMAND (R137) and STATUS (R141) -/

/-- The slot's state code (11.3). -/
def Slot.octet : Slot → Byte
  | .idle => 0x00
  | .pending _ _ => 0x01
  | .outstanding _ => 0x02

/-- The 37 octets of STATUS (R141, 11.3). -/
def State.statusData (s : State) : List Byte :=
  s.strapped.octets ++ [s.mode.octet, s.sup.line.octet, s.port.octet, if s.session.isSome then 0x01 else 0x00] ++
    ownerOctets (s.session.map (fun x => x.owner)) ++
    oct s.transit.length :: be16 s.transitReserved ++
    oct s.delivery.length :: be16 s.deliveryReserved ++
    [oct s.urgent.length, oct s.normal.length] ++ be16 s.freeOutbound ++
    [oct s.own.length, oct s.log.length, oct s.budget, oct s.reports.length, oct s.replies.length,
      oct s.requests.length] ++
    s.slots.toList.map Slot.octet ++ be32 s.timer

/-- BAD_COMMAND's answer (R137). -/
def State.runBadCommand (_ : Request) (s : State) : State × Answer := s.deny .badCommand

/-- STATUS's answer (R141). -/
def State.runStatus (_ : Request) (s : State) : State × Answer := (s, .ok s.statusData)

/-! ### Parameters (R143, R144, R145) -/

/-- PARAM READ over its operand (R143). -/
def State.runParamRead (r : Request) (s : State) : State × Answer :=
  match r.operands with
  | v :: _ =>
    match readParams v with
    | some ps => (s, .ok (ps.flatMap s.params.record))
    | none => s.deny .badOperand
  | [] => s.deny .badOperand

/-- What a parameter's new value causes in other blocks before the write's reply (R91, R145, R170). What a write of
NOTICE_DEST causes comes after its reply, with the notice unit's turn (R182, R187). -/
def State.afterWrite (s : State) : Param → State
  | .returnTimeout => s.expireLog
  | .sessionTimeout => s.expireSession
  | .lineSilence => s.silence
  | _ => s

/-- PARAM WRITE's effect (R144, R145). -/
def State.writeParam (s : State) (code hi lo : Byte) : State × Answer :=
  match Param.ofOctet code with
  | none => s.deny .badOperand
  | some p =>
    match s.params.write p (num16 hi lo) with
    | none => s.deny .badOperand
    | some ps => (({ s with params := ps }).afterWrite p, .ok [])

/-- PARAM WRITE over its operands (R138, R144). -/
def State.runParamWrite (r : Request) (s : State) : State × Answer :=
  match r.operands with
  | code :: hi :: lo :: _ => s.ifAuthorized r.source (s.writeParam code hi lo)
  | _ => s.deny .badOperand

/-! ### Lists (R146 to R149) -/

/-- A list by name (R146). -/
def State.listOf (s : State) : ListName → Vector (Option Address) 4
  | .identity => s.identity
  | .manager => s.managers

/-- The list's code (11.3). -/
def ListName.octet : ListName → Byte
  | .identity => 0x00
  | .manager => 0x01

/-- LIST READ over its operand (R146). -/
def State.runListRead (r : Request) (s : State) : State × Answer :=
  match r.operands with
  | v :: _ =>
    match ListName.ofOctet v with
    | some l => (s, .ok (l.octet :: (s.listOf l).toList.flatMap addressOrEmptyOctets))
    | none => s.deny .badOperand
  | [] => s.deny .badOperand

/-- The new value is an address held in another entry of the list (R147 check 5a). -/
def heldElsewhere (l : Vector (Option Address) 4) (i : Fin 4) (new : Option Address) : Bool :=
  match new with
  | none => false
  | some a => decide (∃ j : Fin 4, j ≠ i ∧ l.get j = some a)

/-- The entry holds another address that is in use (R147 check 5b, R148). -/
def State.givesUpInUse (s : State) (old new : Option Address) : Bool :=
  match old with
  | none => false
  | some a => decide (new ≠ some a) && s.inUse a

/-- LIST WRITE's effect, from check 4b on (R147, R149). -/
def State.writeList (s : State) (l : ListName) (i : Fin 4) (new : Option Address) : State × Answer :=
  match l with
  | .identity =>
    if i = 0 then s.deny .badOperand
    else if heldElsewhere s.identity i new then s.deny .duplicate
    else if s.givesUpInUse (s.identity.get i) new then s.deny .inUse
    else ({ s with identity := s.identity.set i new }, .ok [])
  | .manager =>
    if heldElsewhere s.managers i new then s.deny .duplicate
    else ({ s with managers := s.managers.set i new }, .ok [])

/-- LIST WRITE over its operands (R138, R147, R192). -/
def State.runListWrite (r : Request) (s : State) : State × Answer :=
  match r.operands with
  | l :: i :: form :: g :: m :: _ =>
    s.ifAuthorized r.source
      (match ListName.ofOctet l, readIndex i, readAddressOrEmpty form g m with
      | some l, some i, some new => s.writeList l i new
      | _, _, _ => s.deny .badOperand)
  | _ => s.deny .badOperand

/-! ### TABLE READ (R150) -/

/-- The records of active entries from a position on (R150, 11.4). -/
def activeRecords (position : Nat) : List TableEntry → List Byte
  | [] => []
  | e :: es => entryRecord position e.rule e.hits none ++ activeRecords (position + 1) es

/-- The records of staged entries from a position on, each with the count of its origin (R150, 11.4). -/
def stagedRecords (active : List TableEntry) (position : Nat) : List StagedEntry → List Byte
  | [] => []
  | e :: es =>
    entryRecord position e.rule (hitsOfOrigin active e.origin) e.origin ++ stagedRecords active (position + 1) es

/-- TABLE READ's answer (R150). -/
def State.readTable (s : State) (t : TableName) (start count : Nat) : Answer :=
  match t with
  | .active =>
    if s.active.length < start then .refusal .noEntry
    else .ok ([0x00, oct s.active.length, oct start] ++ activeRecords start ((s.active.drop start).take count))
  | .staged =>
    match s.session with
    | none => .refusal .noSession
    | some x =>
      if x.staged.length < start then .refusal .noEntry
      else .ok ([0x01, oct x.staged.length, oct start] ++
        stagedRecords s.active start ((x.staged.drop start).take count))

/-- TABLE READ over its operands (R138, R150). -/
def State.runTableRead (r : Request) (s : State) : State × Answer :=
  match r.operands with
  | t :: start :: count :: _ =>
    match TableName.ofOctet t with
    | some t =>
      if start.toNat ≤ Config.tableEntries ∧ inRange 1 32 count.toNat then (s, s.readTable t start.toNat count.toNat)
      else s.deny .badOperand
    | none => s.deny .badOperand
  | _ => s.deny .badOperand

/-! ### COUNTERS READ (R152) -/

/-- The numbers of the counters named. -/
def counterRange (first count : Nat) : List (Fin 16) :=
  (List.finRange 16).filter (fun i => decide (first ≤ i.val ∧ i.val < first + count))

/-- Each counter named with its value (11.3). -/
def State.counterRecords (s : State) (first count : Nat) : List Byte :=
  (counterRange first count).flatMap (fun i => oct i.val :: be32 (s.counters.get i))

/-- Sets the counters named to 0 (R152). -/
def State.clearCounters (s : State) (first count : Nat) : State :=
  { s with counters := Vector.ofFn (fun i => if first ≤ i.val ∧ i.val < first + count then 0 else s.counters.get i) }

/-- COUNTERS READ's effect (R152). -/
def State.readCounters (s : State) (first count : Nat) (clear : Bool) : State × Answer :=
  if first ≤ 15 ∧ inRange 1 16 count ∧ first + count ≤ 16 then
    (if clear then s.clearCounters first count else s, .ok (s.counterRecords first count))
  else s.deny .badOperand

/-- COUNTERS READ over its operands: modifying with the clear flag set (R138, R152). -/
def State.runCountersRead (r : Request) (s : State) : State × Answer :=
  match r.operands with
  | first :: count :: flag :: _ =>
    if clearFlag flag then s.ifAuthorized r.source (s.readCounters first.toNat count.toNat true)
    else s.readCounters first.toNat count.toNat false
  | _ => s.deny .badOperand

/-! ### NOTICE ACK (R184) -/

/-- The slot after its acknowledgement (R184). -/
def OutNotice.acked (n : OutNotice) : Slot := if 0 < n.sinceSend then .pending n.sinceSend n.detail else .idle

/-- The reply data of a NOTICE ACK: kind, state, and what R184 and 11.3 add for that state. -/
def ackData (k : NoticeKind) : Slot → List Byte
  | .idle => [oct (noticeCode k), 0x00]
  | .pending occ _ => [oct (noticeCode k), 0x01, oct occ]
  | .outstanding _ => [oct (noticeCode k), 0x02]

/-- The reply data of NOT_OUTSTANDING: kind, present state, and the sequence if OUTSTANDING (R184, 11.3). -/
def notOutstandingData (k : NoticeKind) : Slot → List Byte
  | .outstanding n => [oct (noticeCode k), 0x02, n.seq]
  | x => [oct (noticeCode k), x.octet]

/-- NOTICE ACK's effect (R184). -/
def State.ackNotice (s : State) (k : NoticeKind) (seq : Byte) : State × Answer :=
  match s.slot k with
  | .outstanding n =>
    if n.seq = seq then (s.setSlot k n.acked, .ok (ackData k n.acked))
    else (s, ⟨.notOutstanding, notOutstandingData k (s.slot k)⟩)
  | x => (s, ⟨.notOutstanding, notOutstandingData k x⟩)

/-- NOTICE ACK over its operands (R138, R184). -/
def State.runNoticeAck (r : Request) (s : State) : State × Answer :=
  match r.operands with
  | k :: seq :: _ =>
    s.ifAuthorized r.source
      (match noticeKindOf k with
      | some k => s.ackNotice k seq
      | none => s.deny .badOperand)
  | _ => s.deny .badOperand

/-! ### RESTART (R153) -/

/-- Step 1 of R153: receiver, classifier, transit queue, loop transmitter (R21, R44, R64, R65). -/
def State.restartLoop (s : State) : State :=
  { s with rx := ⟨.hunt, 0, []⟩, verdict := none, transit := [], ltx := s.ltx.abort }

/-- Step 2 of R153: insertion queues and delivery store (R80, R81, R112). -/
def State.restartQueues (s : State) : State :=
  { s with own := [], urgent := [], normal := [], fairness := 0, delivery := [], ptx := s.ptx.abortDelivery }

/-- Step 4 of R153: the flushed frames are added to the flushed count, and a PORT STATUS is caused (R125, R130). -/
def State.restartPort (s : State) (frames : Nat) : State :=
  { s with flushed := saturate (s.flushed + frames) }.causeStatus

/-- Step 6 of R153: every slot IDLE, then STARTED raised with the requester (R188). -/
def State.restartNotices (s : State) (who : Requester) : State :=
  { s with slots := Vector.replicate 8 .idle }.raise .started who.detail

/-- RESTART's effects in the order of R153, for the request `r` at the head. -/
def State.restart (s : State) (r : Request) : State :=
  let frames := s.urgent.length + s.normal.length
  let s := s.restartLoop.restartQueues.flushLog.restartPort frames
  { s with requests := [r], session := none }.restartNotices r.source

/-- RESTART, after check 3 (R153). -/
def State.runRestart (r : Request) (s : State) : State × Answer := s.ifAuthorized r.source (s.restart r, .ok [])

end Sys2Proof.Machine
end

