-- ==== Sys2Proof/Machine/Engine.lean ====
section
/-! DEFINITION. What every event ends with: the management engine carries out each head request it can (R136), then the
notice unit takes its places (R182). The rules put both inside the event that makes them possible; they are its last effects
(log entry 4). -/

namespace Sys2Proof.Machine

/-! ### The engine's chain (R136) -/

/-- What carrying out a request of a command does and answers; `none` is an absent or unknown command (R137). -/
def State.runOf : Option Command → Request → State → State × Answer
  | none => State.runBadCommand
  | some .status => State.runStatus
  | some .paramRead => State.runParamRead
  | some .paramWrite => State.runParamWrite
  | some .listRead => State.runListRead
  | some .listWrite => State.runListWrite
  | some .tableRead => State.runTableRead
  | some .countersRead => State.runCountersRead
  | some .sessionOpen => State.runSessionOpen
  | some .entryInsert => State.runEntryInsert
  | some .entryReplace => State.runEntryReplace
  | some .entryRemove => State.runEntryRemove
  | some .sessionCommit => State.runSessionCommit
  | some .sessionDiscard => State.runSessionDiscard
  | some .noticeAck => State.runNoticeAck
  | some .restart => State.runRestart

/-- Carries out a head request, whichever its command (R136, R140). -/
def State.carryOut (s : State) (r : Request) : State := s.carry r (State.runOf r.command)

/-- Carries out at most `n` head requests, one after another. -/
def State.carryOutUpTo : Nat → State → State
  | 0, s => s
  | n + 1, s =>
    match s.readyHead with
    | some r => State.carryOutUpTo n (s.carryOut r)
    | none => s

/-- The engine's chain (R136): each head that is ready is carried out and leaves, until one must wait or none is left. -/
def State.engine (s : State) : State := State.carryOutUpTo s.requests.length s

/-! ### The end of an event -/

/-- The last effects of an event (R67, R136, R180, R182): the engine goes first, and the notice unit then takes what places
are left. -/
def State.settle (s : State) : State := s.engine.placeNotices

/-- The outcome of a command with effect `f` that can make a request or a notice ready: the effect, then what it made
possible; none while power-on reset is asserted (log entry 9). -/
def State.event (s : State) (f : State → State) : Host.Outcome State Fault Refusal :=
  .next (if s.resetAsserted then s else (f s).settle)

end Sys2Proof.Machine
end

