-- ==== Sys2Proof/Machine/Commands.lean ====
section
/-! DEFINITION. The meaning of each command but the reset pin's two (Reset.lean): its block's effect, and, where that can
make a request or a notice ready, the end of the event (`State.event`). -/

namespace Sys2Proof.Machine

/-! ### The loop receive line -/

/-- LOOP_FLAG (R17), after the loop transmitter's octet times since the last event that brought some (log entry 6). -/
def execLoopFlag (tail : List Bool) (s : State) (times : Nat := 1) : Host.Outcome State Fault Refusal :=
  s.event (fun s => (s.octetTimes times).loopFlag tail)

/-- LOOP_OCTET (R5), after the loop transmitter's octet times since the last event that brought some (log entry 6). -/
def execLoopOctet (v : Byte) (s : State) (rest : List Bool := []) (times : Nat := 1) :
    Host.Outcome State Fault Refusal :=
  s.event (fun s => (s.octetTimes times).loopOctet v rest)

/-- LOOP_ABORT (R14): the seventh consecutive one. -/
def execLoopAbort (s : State) : Host.Outcome State Fault Refusal := s.event (fun s => s.loopOnes 7)

/-- LINE_IDLE (R1): the fifteenth consecutive one; a frame still in FRAME ends with the seventh of them (log entry 11). -/
def execLineIdle (s : State) : Host.Outcome State Fault Refusal := s.event (fun s => s.loopOnes 15)

/-- LINE_SILENCE_DEADLINE (R18). -/
def execLineSilenceDeadline (s : State) : Host.Outcome State Fault Refusal := s.event State.silence

/-! ### The loop transmit line and the return log -/

/-- ARBITER_CHOICE (R70). -/
def execArbiterChoice (s : State) : Host.Outcome State Fault Refusal := s.event State.arbitrate

/-- UNDERRUN (R57), after the loop transmitter's octet times since the last event that brought some (log entry 6). -/
def execUnderrun (s : State) (times : Nat := 0) : Host.Outcome State Fault Refusal :=
  s.event (fun s => (s.octetTimes times).underrun)

/-- FORWARD_COMPLETE (R56). -/
def execForwardComplete (s : State) : Host.Outcome State Fault Refusal := s.running State.completeForward

/-- INSERTION_END (R77). -/
def execInsertionEnd (s : State) : Host.Outcome State Fault Refusal := s.running State.endInsertion

/-- ABORT_COMPLETE (R61). -/
def execAbortComplete (s : State) : Host.Outcome State Fault Refusal := s.running State.completeAbort

/-- RETURN_TIMEOUT_EXPIRY (R91). -/
def execReturnTimeoutExpiry (s : State) : Host.Outcome State Fault Refusal := s.running State.expireLog

/-! ### The station port -/

/-- PORT_BREAK (R116, R129). -/
def execPortBreak (s : State) (bits : List Bool := List.replicate 32 false) : Host.Outcome State Fault Refusal :=
  s.event (fun s => s.startBreak bits)

/-- PORT_BREAK_END (R117). -/
def execPortBreakEnd (s : State) : Host.Outcome State Fault Refusal := s.running State.endBreak

/-- STATION_FRAME_GOOD (R118). -/
def execStationFrameGood (s : State) : Host.Outcome State Fault Refusal := s.event State.stationGood

/-- STATION_FRAME_DISCARD (R121). -/
def execStationFrameDiscard (how : StationEnd) (s : State) : Host.Outcome State Fault Refusal :=
  s.event (fun s => s.stationDiscard how)

/-- PORT_TX_CHOICE (R128). -/
def execPortTxChoice (s : State) : Host.Outcome State Fault Refusal := s.running State.portChoice

/-- PORT_REPORT_SENT (R128). -/
def execPortReportSent (s : State) : Host.Outcome State Fault Refusal := s.event State.reportSent

/-- PORT_TX_ABORT_COMPLETE (R127). -/
def execPortTxAbortComplete (s : State) : Host.Outcome State Fault Refusal := s.running State.portAbortSent

/-! ### Requests

On the part the head request is carried out in the event that makes it ready (R136), which `State.event` does there; given
with a ready head of its kind, each of these commands carries it out, and the chain goes on (log entry 4). -/

/-- BAD_COMMAND (R137): a head request with no command or an unknown one. -/
def execBadCommand (s : State) : Host.Outcome State Fault Refusal := s.event (fun s => s.serve none State.runBadCommand)

/-- STATUS (R141). -/
def execStatus (s : State) : Host.Outcome State Fault Refusal :=
  s.event (fun s => s.serve (some .status) State.runStatus)

/-- PARAM_READ (R143). -/
def execParamRead (s : State) : Host.Outcome State Fault Refusal :=
  s.event (fun s => s.serve (some .paramRead) State.runParamRead)

/-- PARAM_WRITE (R144). -/
def execParamWrite (s : State) : Host.Outcome State Fault Refusal :=
  s.event (fun s => s.serve (some .paramWrite) State.runParamWrite)

/-- LIST_READ (R146). -/
def execListRead (s : State) : Host.Outcome State Fault Refusal :=
  s.event (fun s => s.serve (some .listRead) State.runListRead)

/-- LIST_WRITE (R147). -/
def execListWrite (s : State) : Host.Outcome State Fault Refusal :=
  s.event (fun s => s.serve (some .listWrite) State.runListWrite)

/-- TABLE_READ (R150). -/
def execTableRead (s : State) : Host.Outcome State Fault Refusal :=
  s.event (fun s => s.serve (some .tableRead) State.runTableRead)

/-- COUNTERS_READ (R152). -/
def execCountersRead (s : State) : Host.Outcome State Fault Refusal :=
  s.event (fun s => s.serve (some .countersRead) State.runCountersRead)

/-- SESSION_OPEN (R162). -/
def execSessionOpen (s : State) : Host.Outcome State Fault Refusal :=
  s.event (fun s => s.serve (some .sessionOpen) State.runSessionOpen)

/-- ENTRY_INSERT (R163). -/
def execEntryInsert (s : State) : Host.Outcome State Fault Refusal :=
  s.event (fun s => s.serve (some .entryInsert) State.runEntryInsert)

/-- ENTRY_REPLACE (R164). -/
def execEntryReplace (s : State) : Host.Outcome State Fault Refusal :=
  s.event (fun s => s.serve (some .entryReplace) State.runEntryReplace)

/-- ENTRY_REMOVE (R165). -/
def execEntryRemove (s : State) : Host.Outcome State Fault Refusal :=
  s.event (fun s => s.serve (some .entryRemove) State.runEntryRemove)

/-- SESSION_COMMIT (R166). -/
def execSessionCommit (s : State) : Host.Outcome State Fault Refusal :=
  s.event (fun s => s.serve (some .sessionCommit) State.runSessionCommit)

/-- SESSION_DISCARD (R169). -/
def execSessionDiscard (s : State) : Host.Outcome State Fault Refusal :=
  s.event (fun s => s.serve (some .sessionDiscard) State.runSessionDiscard)

/-- NOTICE_ACK (R184). -/
def execNoticeAck (s : State) : Host.Outcome State Fault Refusal :=
  s.event (fun s => s.serve (some .noticeAck) State.runNoticeAck)

/-- RESTART (R153). -/
def execRestart (s : State) : Host.Outcome State Fault Refusal :=
  s.event (fun s => s.serve (some .restart) State.runRestart)

/-! ### Sessions and notices -/

/-- SESSION_TIMEOUT_EXPIRY (R170). -/
def execSessionTimeoutExpiry (s : State) : Host.Outcome State Fault Refusal := s.event State.expireSession

/-- NOTICE_FIRST_SEND (R181): the engine goes first (R182), then the sendable slot is sent if a place is left. -/
def execNoticeFirstSend (s : State) : Host.Outcome State Fault Refusal := s.event (fun s => s.engine.sendFirst)

/-- NOTICE_RETRY_DEADLINE (R183): of this kind's slot. -/
def execNoticeRetryDeadline (k : NoticeKind) (s : State) : Host.Outcome State Fault Refusal :=
  s.event (fun s => s.retryDeadline k)

/-- NOTICE_RESEND (R183): the engine and a first send go before the waiting resends (R182). -/
def execNoticeResend (s : State) : Host.Outcome State Fault Refusal :=
  s.event (fun s => s.engine.sendFirst.resendWaiting)

/-! ### The station receive line -/

/-- STATION_FLAG (R115): the bits before the flag are discarded, whatever they are. -/
def execStationFlag (_tail : List Bool) (s : State) : Host.Outcome State Fault Refusal := s.running State.stationFlag

/-- STATION_OCTET (R115). -/
def execStationOctet (v : Byte) (s : State) (rest : List Bool := []) : Host.Outcome State Fault Refusal :=
  s.event (fun s => s.stationOctet v rest)

/-- STATION_ABORT (R115). -/
def execStationAbort (idle : Bool) (s : State) : Host.Outcome State Fault Refusal :=
  s.running (fun s => s.stationAbort idle)

end Sys2Proof.Machine
end

