-- ==== Sys2Proof/Machine/Reset.lean ====
section
/-! DEFINITION. Power-on reset: its release, which samples the straps, and its assertion (R20, R22, R63). -/

namespace Sys2Proof.Machine

/-- The identity list a strapped address gives at power-on reset (R23). -/
def identityOf (a : Address) : Vector (Option Address) 4 :=
  match modeOf a with
  | .service => #v[some a, none, none, none]
  | .repeater => #v[none, none, none, none]

/-- The part right after power-on reset is released with these straps (R20, R22, R23, R188): every field but these as
`State.reset` has it. -/
def State.powerOn (group member : Byte) : State :=
  { State.reset with strapped := ⟨group, member⟩, mode := modeOf ⟨group, member⟩,
                     identity := identityOf ⟨group, member⟩ }

/-- The part while power-on reset is asserted (R63, log entry 9): the power-on state, with STARTED not yet raised, which
its release does (R188). The straps are sampled at the release, so the address stands till then. -/
def State.asserted (s : State) : State :=
  { State.powerOn s.strapped.group s.strapped.member with
    resetAsserted := true, slots := Vector.replicate 8 .idle, pending := s.pending }

/-- POWER_ON_RESET (R20, R22). Given while the pin is not asserted, where the spec has no release, it resets the whole part
too, as the pin's assertion and release together would: DESIGN CHOICE, log entry 19. The queue of waiting commands is the
model's, not the part's. -/
def execPowerOnReset (group member : Byte) (s : State) : Host.Outcome State Fault Refusal :=
  .next { State.powerOn group member with pending := s.pending }

/-- POWER_ON_RESET_ASSERT (R63). -/
def execPowerOnResetAssert (s : State) : Host.Outcome State Fault Refusal := .next s.asserted

end Sys2Proof.Machine
end

