-- ==== Sys2Proof/Machine/Lines.lean ====
section
/-! DEFINITION. What the part shows: its two transmit lines, as functions of the state (R56, R60, R61, R63, R77, R109,
R127, R128). Nothing of them is stored. -/

namespace Sys2Proof.Machine

/-- What a transmit line carries (R59, R60, R127). -/
inductive LineOut where
  /-- Held at one, while power-on reset is asserted (R63). -/
  | ones
  /-- Flags, one after another. -/
  | flags
  /-- A whole frame between flags, its FCS field included. -/
  | frame (octets : List Byte)
  /-- A copy whose frame still arrives: the octets of it sent so far, with no closing flag yet (R56, R60). -/
  | openFrame (octets : List Byte)
  /-- Eight ones, then a flag. -/
  | abort
  deriving DecidableEq, Repr

/-- A loop frame's octets with its FCS (R56, R77). -/
def loopFrame (h : Header) (info : List Byte) : List Byte := withFcs (h.octets ++ info)

/-- The octets of an inserted frame (R75, R77). -/
def Inserted.octets : Inserted → List Byte
  | .own f => loopFrame f.header f.info
  | .station f => loopFrame f.header f.info

/-- A copy on the line: after a GOOD end the whole frame with its FCS, before it the octets sent, after which only another
octet or an abort can come (R51, R54, R56, R57). -/
def TransitEntry.line (e : TransitEntry) : LineOut :=
  if e.status = .good then .frame (loopFrame e.header e.info) else .openFrame ((e.header.octets ++ e.info).take e.sent)

/-- The loop transmit line. -/
def State.loopLine (s : State) : LineOut :=
  if s.resetAsserted then .ones
  else
    match s.ltx with
    | .idle => .flags
    | .forwarding => (s.transit.head?.map TransitEntry.line).getD (.openFrame [])
    | .inserting f => .frame f.octets
    | .aborting => .abort

/-- The station transmit line: a report is its port octet, its body and the FCS over both (R109, R114, R128). -/
def State.portLine (s : State) : LineOut :=
  if s.resetAsserted then .ones
  else
    match s.ptx with
    | .idle => .flags
    | .record => .frame (withFcs ((s.reports.head?.map Report.octets).getD []))
    | .reply => .frame (withFcs ((s.replies.head?.map ReplyReport.octets).getD []))
    | .delivery => .frame (withFcs ((s.delivery.head?.map DeliveryEntry.octets).getD []))
    | .aborting => .abort

/-- The bits that follow the flag a line has just sent (R60, R61): a frame's octets with zeros inserted and its closing
flag, the same without the flag for a copy still open, the abort and its flag, the next flag, or one bit time of a line held
at one. -/
def LineOut.bits : LineOut → List Bool
  | .ones => [true]
  | .flags => flagBits
  | .frame octets => stuff 0 (lineBits octets) ++ flagBits
  | .openFrame octets => stuff 0 (lineBits octets)
  | .abort => abortBits ++ flagBits

end Sys2Proof.Machine
end

