-- ==== Sys2Proof/Machine/LineCommands.lean ====
section
/-! DEFINITION. The two receive lines bit by bit: which command each event of a line is (R1 to R5, R115 to R117), and what a
bit that completes no event leaves. The run of ones and the collector that a bit meets are the state's. -/

namespace Sys2Proof.Machine

/-- The loop receive line as the state has it. -/
def LoopRx.line (rx : LoopRx) : LineRx := ⟨rx.run, rx.collector⟩

/-- The station receive line as the state has it. -/
def StationRx.line (rx : StationRx) : LineRx := ⟨rx.run, rx.collector⟩

/-- The command of an event on the loop receive line, after which the line stands at `l`. -/
def loopCommand (l : LineRx) : LineEvent → Instr
  | .flag tail => .loopFlag tail
  | .octet v => .loopOctet v l.collector
  | .abort => .loopAbort
  | .idle => .lineIdle

/-- The command a bit on the loop receive line completes, if it completes one. -/
def State.loopBitCommand (s : State) (b : Bool) : Option Instr :=
  let r := s.rx.line.bit b
  r.2.head?.map (loopCommand r.1)

/-- The loop receiver after a bit that completes no command (R1, R3): in HUNT the collector stays empty. -/
def LoopRx.takeBit (rx : LoopRx) (b : Bool) : LoopRx :=
  let l := (rx.line.bit b).1
  { rx with run := l.run, collector := if rx.state = .hunt then [] else l.collector }

/-- The command of a flag on the station receive line (R115, R117). -/
def State.stationFlagCommand (s : State) (tail : List Bool) : Instr :=
  match s.port with
  | .break => .portBreakEnd
  | .active =>
    match s.srx.state with
    | .frame f _ =>
      if f.judge 1 (decide (tail ≠ [])) = .good then .stationFrameGood else .stationFrameDiscard (.flag tail)
    | _ => .stationFlag tail

/-- The command of an event on the station receive line, for the state it arrives in (R115). -/
def State.stationCommand (s : State) (l : LineRx) : LineEvent → Instr
  | .flag tail => s.stationFlagCommand tail
  | .octet v =>
    if s.srx.atExcess then .stationFrameDiscard (.excess v l.collector) else .stationOctet v l.collector
  | .abort =>
    match s.srx.state with
    | .frame _ _ => .stationFrameDiscard .abort
    | _ => .stationAbort false
  | .idle => .stationAbort true

/-- The station receiver after a bit that completes no command (R3, R115, R116). -/
def StationRx.takeBit (rx : StationRx) (b : Bool) : StationRx :=
  let l := (rx.line.bit b).1
  { rx with
    run := l.run
    zeroRun := zerosAfter rx.zeroRun [b]
    collector := if rx.state = .hunt then [] else l.collector }

/-- The command a bit on the station receive line completes, if it completes one: an event of the line code, or the break
that the bit's zero run begins (R115 to R117). -/
def State.stationBitCommand (s : State) (b : Bool) : Option Instr :=
  let r := s.srx.line.bit b
  match r.2 with
  | e :: _ => some (s.stationCommand r.1 e)
  | [] => if ({ s with srx := s.srx.takeBit b } : State).breakBegins then some (.portBreak [b]) else none

end Sys2Proof.Machine
end

