-- ==== Sys2Proof/Machine/Dispatch.lean ====
section
/-! DEFINITION. One arm per command, in the table's order. -/

namespace Sys2Proof.Machine

def exec (i : Instr) (s : State) : Host.Outcome State Fault Refusal :=
  match i with
  | .powerOnReset g m => Sys2Proof.Machine.execPowerOnReset g m s
  | .loopFlag t n => Sys2Proof.Machine.execLoopFlag t s n
  | .loopOctet v r n => Sys2Proof.Machine.execLoopOctet v s r n
  | .loopAbort => Sys2Proof.Machine.execLoopAbort s
  | .lineIdle => Sys2Proof.Machine.execLineIdle s
  | .lineSilenceDeadline => Sys2Proof.Machine.execLineSilenceDeadline s
  | .arbiterChoice => Sys2Proof.Machine.execArbiterChoice s
  | .underrun n => Sys2Proof.Machine.execUnderrun s n
  | .forwardComplete => Sys2Proof.Machine.execForwardComplete s
  | .insertionEnd => Sys2Proof.Machine.execInsertionEnd s
  | .abortComplete => Sys2Proof.Machine.execAbortComplete s
  | .returnTimeoutExpiry => Sys2Proof.Machine.execReturnTimeoutExpiry s
  | .portBreak b => Sys2Proof.Machine.execPortBreak s b
  | .portBreakEnd => Sys2Proof.Machine.execPortBreakEnd s
  | .stationFrameGood => Sys2Proof.Machine.execStationFrameGood s
  | .stationFrameDiscard h => Sys2Proof.Machine.execStationFrameDiscard h s
  | .portTxChoice => Sys2Proof.Machine.execPortTxChoice s
  | .portReportSent => Sys2Proof.Machine.execPortReportSent s
  | .portTxAbortComplete => Sys2Proof.Machine.execPortTxAbortComplete s
  | .badCommand => Sys2Proof.Machine.execBadCommand s
  | .status => Sys2Proof.Machine.execStatus s
  | .paramRead => Sys2Proof.Machine.execParamRead s
  | .paramWrite => Sys2Proof.Machine.execParamWrite s
  | .listRead => Sys2Proof.Machine.execListRead s
  | .listWrite => Sys2Proof.Machine.execListWrite s
  | .tableRead => Sys2Proof.Machine.execTableRead s
  | .countersRead => Sys2Proof.Machine.execCountersRead s
  | .sessionOpen => Sys2Proof.Machine.execSessionOpen s
  | .entryInsert => Sys2Proof.Machine.execEntryInsert s
  | .entryReplace => Sys2Proof.Machine.execEntryReplace s
  | .entryRemove => Sys2Proof.Machine.execEntryRemove s
  | .sessionCommit => Sys2Proof.Machine.execSessionCommit s
  | .sessionDiscard => Sys2Proof.Machine.execSessionDiscard s
  | .noticeAck => Sys2Proof.Machine.execNoticeAck s
  | .restart => Sys2Proof.Machine.execRestart s
  | .sessionTimeoutExpiry => Sys2Proof.Machine.execSessionTimeoutExpiry s
  | .noticeFirstSend => Sys2Proof.Machine.execNoticeFirstSend s
  | .noticeRetryDeadline k => Sys2Proof.Machine.execNoticeRetryDeadline k s
  | .noticeResend => Sys2Proof.Machine.execNoticeResend s
  | .powerOnResetAssert => Sys2Proof.Machine.execPowerOnResetAssert s
  | .stationFlag t => Sys2Proof.Machine.execStationFlag t s
  | .stationOctet v r => Sys2Proof.Machine.execStationOctet v s r
  | .stationAbort b => Sys2Proof.Machine.execStationAbort b s

end Sys2Proof.Machine
end

