-- ==== Sys2Proof/Machine/LineBits.lean ====
section
/-! DEFINITION. One bit of a receive line, taken by the part: the command it completes is carried out, and a bit that
completes none moves the receiver's runs and collector alone (R1 to R5, R115, R116). -/

namespace Sys2Proof.Machine

/-- The state after a command, which every command answers; the state itself for a fault or a refusal, which none is. -/
def State.afterCommand (s : State) (c : Instr) : State :=
  match exec c s with
  | .next t => t
  | _ => s

/-- One bit of the loop receive line. -/
def State.loopBit (s : State) (b : Bool) : State :=
  if s.resetAsserted then s
  else
    match s.loopBitCommand b with
    | some c => s.afterCommand c
    | none => { s with rx := s.rx.takeBit b }

/-- One bit of the station receive line. -/
def State.stationBit (s : State) (b : Bool) : State :=
  if s.resetAsserted then s
  else
    match s.stationBitCommand b with
    | some c => s.afterCommand c
    | none => { s with srx := s.srx.takeBit b }

end Sys2Proof.Machine
end

