-- ==== Sys2Proof/Safety.lean ====
section
/-! DEFINITION. What the statements about the part are said in: the engine ready for a request, runs of commands, and the
invariants of a sound state, each with the rules it gathers. -/

namespace Sys2Proof.Machine

/-! ### Ready requests and runs -/

/-- The part is running, and the engine can carry out the head request, whose octets are a tag, this command code and
these operands (R136, R137). -/
def State.Serves (s : State) (r : Request) (code : Byte) (operands : List Byte) : Prop :=
  s.resetAsserted = false ∧ s.readyHead = some r ∧ ∃ tag, r.octets = tag :: code :: operands

/-- The state after a run of commands, if none of them stops. -/
def runs : List Instr → State → Option State
  | [], s => some s
  | c :: cs, s =>
    match exec c s with
    | .next t => runs cs t
    | _ => none

/-! ### Bounds of stores, queues and logs -/

/-- The transit queue and its store keep their bounds (R45). -/
abbrev TransitBounded (s : State) : Prop :=
  s.transit.length ≤ Config.transitEntries ∧ s.transitReserved ≤ Config.transitStore

/-- The delivery store keeps its bounds (R99). -/
abbrev DeliveryBounded (s : State) : Prop :=
  s.delivery.length ≤ Config.deliveryEntries ∧ s.deliveryReserved ≤ Config.deliveryStore

/-- The class queues and the station outbound store keep their bounds (R68). -/
abbrev OutboundBounded (s : State) : Prop :=
  s.urgent.length ≤ Config.classFrames ∧ s.normal.length ≤ Config.classFrames ∧
    s.outboundReserved ≤ Config.outboundStore

/-- The own output queue, the request queue and the reply slot keep their bounds (R66, R133, R126). -/
abbrev QueuesBounded (s : State) : Prop :=
  s.own.length ≤ Config.ownFrames ∧ s.requests.length ≤ Config.requestPlaces ∧ s.replies.length ≤ Config.replyPlaces

/-- Every store and queue keeps its bounds. -/
abbrev StoresBounded (s : State) : Prop :=
  TransitBounded s ∧ DeliveryBounded s ∧ OutboundBounded s ∧ QueuesBounded s

/-- The return log holds at most 16 entries, of distinct sequences (R82), and the completion budget in use is at most 16
(R94). -/
abbrev LogBounded (s : State) : Prop :=
  s.log.length ≤ Config.logEntries ∧ (s.log.map (fun e => e.seq)).Nodup ∧ s.budget ≤ Config.completionBudget

/-- The report queue holds at most 24 records, at most 8 of them shared; at most one PORT STATUS waits, and it is held only
while the shared records number 8 (R122, R123). -/
abbrev ReportsBounded (s : State) : Prop :=
  s.reports.length ≤ 24 ∧ s.sharedRecords ≤ Config.sharedPlaces ∧
    (s.reports.filter (fun r => r.isWaitingStatus)).length + (if s.statusHeld then 1 else 0) ≤ 1 ∧
    (s.statusHeld = true → s.sharedRecords = Config.sharedPlaces)

/-! ### Tables and lists -/

/-- A run of keys obeys R24 and R26: at most 48, no two equal, no member low above its member high. -/
abbrev KeysSound (keys : List Key) : Prop :=
  keys.length ≤ Config.tableEntries ∧ keys.Nodup ∧ ∀ k ∈ keys, k.low.toNat ≤ k.high.toNat

/-- The staged table obeys R26, its origins name entries of the active table, and no two entries share one (R160, R167). -/
abbrev StagedSound (active : List TableEntry) (staged : List StagedEntry) : Prop :=
  KeysSound (staged.map (fun e => e.rule.key)) ∧ (staged.filterMap (fun e => e.origin)).Nodup ∧
    ∀ o ∈ staged.filterMap (fun e => e.origin), o < active.length

/-- The active and the staged table are sound (R24, R26, R160). -/
abbrev TablesSound (s : State) : Prop :=
  KeysSound (s.active.map (fun e => e.rule.key)) ∧
    ∀ x ∈ s.session.toList, StagedSound s.active x.staged

/-- No address appears in two entries of a list (R23, R146). -/
abbrev ListSound (l : Vector (Option Address) 4) : Prop :=
  ∀ i j : Fin 4, i ≠ j → l.get i ≠ none → l.get i ≠ l.get j

/-- The mode is fixed from the strapped address, entry 0 of the identity list is the strapped address in SERVICE mode, and
every identity entry is empty in REPEATER mode (R22, R23, R146). -/
abbrev IdentityFixed (s : State) : Prop :=
  s.mode = modeOf s.strapped ∧ (s.mode = .service → s.identity.get 0 = some s.strapped) ∧
    (s.mode = .repeater → ∀ i : Fin 4, s.identity.get i = none)

/-- The lists are sound (R23, R146). -/
abbrev ListsSound (s : State) : Prop := IdentityFixed s ∧ ListSound s.identity ∧ ListSound s.managers

/-! ### REPEATER mode and breaks -/

/-- The loop transmitter is in INSERTING (R59). -/
def LoopTx.isInserting : LoopTx → Bool
  | .inserting _ => true
  | _ => false

/-- What stays empty and unset in REPEATER mode (R79, R113, R156, R175, R189). -/
abbrev RepeaterQuiet (s : State) : Prop :=
  s.mode = .repeater →
    s.own = [] ∧ s.urgent = [] ∧ s.normal = [] ∧ s.log = [] ∧ s.delivery = [] ∧ s.replies = [] ∧ s.requests = [] ∧
      s.active = [] ∧ s.session = none ∧ s.epoch = 0 ∧ s.params = Params.powerOn ∧
      (∀ i : Fin 4, s.managers.get i = none) ∧ (∀ k : Fin 8, (s.slots.get k).isOutstanding = false) ∧
      s.counter .inserted = 0 ∧ s.counter .delivered = 0 ∧ s.counter .deliveryRefused = 0 ∧ s.counter .mgmtDropped = 0 ∧
      s.ltx.isInserting = false ∧ s.ptx ≠ .delivery

/-- While the port is ACTIVE the zero run in HUNT is below 32: a break begins where it would reach it (R116). -/
abbrev ZeroRunShort (s : State) : Prop :=
  s.port = .active → s.srx.state = .hunt → s.srx.zeroRun < Config.breakRun

/-- What holds while the port is in BREAK (R116, R122, R129, R155, R174). -/
abbrev BreakQuiet (s : State) : Prop :=
  s.port = .break →
    s.srx.state = .hunt ∧ s.reports = [] ∧ s.statusHeld = false ∧ s.replies = [] ∧ s.delivery = [] ∧ s.urgent = [] ∧
      s.normal = [] ∧ (∀ e ∈ s.log, e.origin ≠ .own → e.silent = true) ∧ (∀ r ∈ s.requests, r.isLoop = true) ∧
      (∀ x ∈ s.session.toList, x.owner ≠ .station) ∧ s.discarded = 0 ∧ s.flushed = 0 ∧
      (s.ptx = .idle ∨ s.ptx = .aborting)

/-! ### Between events -/

/-- Nothing that stands ready is left over (R67, R136, R180, R183): the engine has no head it can carry out; a sendable slot
has no place; and a waiting resend has NOTICE_DEST unset, no place, or a higher OUTSTANDING slot whose deadline runs. -/
abbrev Settled (s : State) : Prop :=
  s.readyHead = none ∧ (s.sendable ≠ none → Config.ownFrames ≤ s.own.length) ∧
    (s.destSet = true → s.own.length < Config.ownFrames → ∀ k : NoticeKind, (s.slot k).resendWaits = true →
      ∃ j, higher j k = true ∧ (s.slot j).isOutstanding = true ∧ (s.slot j).resendWaits = false)

/-! ### Ranges -/

/-- Every parameter lies in its range (R142). -/
abbrev ParamsInRange (p : Params) : Prop :=
  (2 ≤ p.hopLimit ∧ p.hopLimit ≤ 63) ∧ (8 ≤ p.cutLead ∧ p.cutLead ≤ 522) ∧
    (1 ≤ p.returnTimeout ∧ p.returnTimeout ≤ 1000) ∧ (100 ≤ p.sessionTimeout ∧ p.sessionTimeout ≤ 60000) ∧
    (10 ≤ p.noticeRetry ∧ p.noticeRetry ≤ 5000) ∧ p.noticeRetries ≤ 7 ∧
    (1 ≤ p.lineSilence ∧ p.lineSilence ≤ 1000) ∧ (1 ≤ p.normalFair ∧ p.normalFair ≤ 15)

/-- A notice slot's counts lie in the ranges of R177; a resend that waits has made at most seven sends (R183). -/
def Slot.inRange : Slot → Bool
  | .idle => true
  | .pending occ _ => decide (1 ≤ occ ∧ occ ≤ 255)
  | .outstanding n =>
    decide (1 ≤ n.occurrences ∧ n.occurrences ≤ 255 ∧ n.sinceSend ≤ 255 ∧ 1 ≤ n.sends ∧ n.sends ≤ 8 ∧
      (n.deadline = none → n.sends ≤ 7))

/-- Every figure lies in its range (R24, R41, R73, R121, R125, R142, R177). -/
abbrev FiguresInRange (s : State) : Prop :=
  ParamsInRange s.params ∧ s.fairness ≤ Config.maxFairness ∧ s.discarded ≤ Config.maxOctet ∧
    s.flushed ≤ Config.maxOctet ∧ (∀ e ∈ s.active, e.hits ≤ Config.maxHits) ∧
    (∀ k : Fin 8, (s.slots.get k).inRange = true) ∧ (∀ e ∈ s.transit, e.header.tally.hops ≤ 63)

/-! ### The frame that arrives -/

/-- The octets of header and info the receiver has brought, if it is in FRAME with the header of a frame of this declared
length complete (R5). -/
def State.heldOf (s : State) (declared : Nat) : Option Nat :=
  match s.rx.state.frame? with
  | some f => if 8 ≤ f.count ∧ f.declared = some declared then some (min f.count (8 + declared)) else none
  | none => none

/-- A current verdict stands exactly while the receiver is in FRAME with the header complete (R7, R30); the receiver keeps
the header octets and, from the eighth on, the declared length (R5, R6). -/
def State.verdictTracks (s : State) : Bool :=
  match s.rx.state.frame? with
  | none => s.verdict.isNone
  | some f =>
    decide (1 ≤ f.count ∧ s.verdict.isSome = decide (8 ≤ f.count) ∧ f.head.length = min f.count 8 ∧
      f.declared = (if 8 ≤ f.count then some (declaredIn 0 f.head) else none))

/-- The figures of a transit entry (R46, R51, R52). -/
abbrev TransitEntry.Sound (e : TransitEntry) : Prop :=
  e.reservation = 8 + e.header.declared ∧ e.info.length + 8 = e.received ∧ e.sent ≤ e.released ∧
    e.released ≤ e.received ∧ e.received ≤ e.reservation ∧ e.status ≠ .bad ∧
    (e.status = .good → e.released = e.reservation ∧ e.sending ≠ .abandoned) ∧
    (e.status = .arriving → e.released + 1 ≤ e.reservation)

/-- The transit queue (R46, R50, R54, R58, R59): sound entries; only the newest may be arriving, and then it is the
frame in the receiver; only the head is being sent or ABANDONED, and FORWARDING is its being sent. -/
abbrev TransitSound (s : State) : Prop :=
  (∀ e ∈ s.transit, e.Sound) ∧ (∀ e ∈ s.transit.dropLast, e.status = .good) ∧ (∀ e ∈ s.transit.tail, e.sending = .no) ∧
    (s.ltx = .forwarding ↔ s.transit.head?.map (fun e => e.sending) = some .yes) ∧
    (∀ e ∈ s.transit, e.status = .arriving →
      s.verdict.map (fun r => r.forward) = some true ∧ (s.heldOf e.header.declared).isSome = true ∧
        (e.sending ≠ .abandoned → s.heldOf e.header.declared = some e.received))

/-- The delivery store (R100, R104, R105, R107, R108): sound entries; only the newest may be arriving; only a GOOD head is
on the port, and then the transmitter sends it. A record or REPLY being sent is there. -/
abbrev DeliverySound (s : State) : Prop :=
  (∀ e ∈ s.delivery, e.reservation = 9 + e.header.declared ∧ e.info.length + 8 = e.copied ∧
      e.copied ≤ 8 + e.header.declared ∧ e.status ≠ .bad ∧
      (e.status = .good → e.copied = 8 + e.header.declared) ∧ (e.onPort = true → e.status = .good) ∧
      (e.status = .arriving → s.heldOf e.header.declared = some e.copied ∧
        s.verdict.map (fun r => r.keepsCopy) = some true)) ∧
    (∀ e ∈ s.delivery.dropLast, e.status = .good) ∧ (∀ e ∈ s.delivery.tail, e.onPort = false) ∧
    (s.ptx = .delivery ↔ s.delivery.head?.map (fun e => e.onPort) = some true) ∧
    (s.ptx = .record → s.reports ≠ []) ∧ (s.ptx = .reply → s.replies ≠ [])

/-- At most one entry is RETURNING, and then the verdict is STRIP (R85); at most one request collects its octets, and then
the verdict kept it (R134). -/
abbrev ArrivalsSound (s : State) : Prop :=
  (s.log.filter (fun e => !e.isOutstanding)).length ≤ 1 ∧
    (s.log.any (fun e => !e.isOutstanding) = true → s.verdict.map (fun r => r.verdict) = some .strip) ∧
    (s.requests.filter (fun r => r.collecting)).length ≤ 1 ∧
    (s.requests.any (fun r => r.collecting) = true → s.verdict.map (fun r => r.keepsRequest) = some true) ∧
    (∀ r ∈ s.requests, r.isLoop = false → r.complete = true)

/-- What each block holds of the frame that arrives agrees with the receiver and the verdict. -/
abbrev FrameSound (s : State) : Prop :=
  s.verdictTracks = true ∧ TransitSound s ∧ DeliverySound s ∧ ArrivalsSound s

end Sys2Proof.Machine
end

