-- ==== Sys2Proof/Certificates/Slice0/Obligations.lean ====
section
/-! DEFINITION. The statements for the provers. Each names the rules it formalises; a hypothesis on the state or the
operands alone, a next state written out whole, so that each also says what the command leaves unchanged. Where a clause
rests on the model's choice, its docstring names the log entry. A state written `t.settle` is `t` at the end of its event,
after what the event made possible (EventEndsCarryingOut, FirstSendIsHighest, ResendOrAbandon). -/

open Sys2Proof Sys2Proof.Machine

/-! ### The queue of commands, reset -/

/-- A step runs the command at the front of the queue with the queue's rest (the model's form, log entry 15). With no command
waiting a step is one millisecond: the timer rises by one and wraps, and nothing else changes; under an asserted reset nothing
does (R16; the model's choice, log entries 1 and 9). -/
def Obligations.StepRunsFrontCommand : Prop :=
  (∀ (c : Instr) (rest : List Instr) (s : State),
    step { s with pending := c :: rest } = exec c { s with pending := rest }) ∧
  ∀ s : State, s.pending = [] →
    (s.resetAsserted = false → step s = .next { s with timer := s.timer + 1 }) ∧
      (s.resetAsserted = true → step s = .next s)

/-- Release of power-on reset samples the straps, which fix the strapped address, the mode and the identity list, and gives
every other piece of state its power-on value (R16, R20, R22, R23, R45, R73, R84, R132, R142, R151, R157, R188); from a state
in which the pin is not asserted too, which is the model's choice (log entry 19). The queue of commands is the model's and
stays. -/
def Obligations.PowerOnResetSetsThePart : Prop :=
  ∀ (g m : Byte) (s : State), ∃ t, exec (.powerOnReset g m) s = .next t ∧
    t.strapped = ⟨g, m⟩ ∧ t.mode = (if g = 0 ∨ g = 255 ∨ m = 0 ∨ m = 255 then .repeater else .service) ∧
    t.identity =
      (if g = 0 ∨ g = 255 ∨ m = 0 ∨ m = 255 then #v[none, none, none, none] else #v[some ⟨g, m⟩, none, none, none]) ∧
    t.resetAsserted = false ∧ t.pending = s.pending ∧
    t.timer = 0 ∧ t.rx = ⟨.hunt, 0, []⟩ ∧ t.sup = ⟨.down, 0, 0, false⟩ ∧ t.verdict = none ∧
    t.active = [] ∧ t.epoch = 0 ∧ t.session = none ∧ t.transit = [] ∧ t.ltx = .idle ∧
    t.own = [] ∧ t.urgent = [] ∧ t.normal = [] ∧ t.freeOutbound = 3072 ∧ t.fairness = 0 ∧
    t.log = [] ∧ t.logSeq = 0 ∧ t.budget = 0 ∧ t.delivery = [] ∧
    t.port = .break ∧ t.srx = ⟨.hunt, 0, 0, []⟩ ∧ t.reports = [] ∧ t.statusHeld = false ∧ t.replies = [] ∧
    t.discarded = 0 ∧ t.flushed = 0 ∧ t.ptx = .idle ∧ t.requests = [] ∧
    t.params = ⟨.pass, 32, 24, 20, 5000, ⟨0, 0⟩, 200, 3, true, true, 50, 4⟩ ∧
    (∀ i : Fin 4, t.managers.get i = none) ∧ (∀ c : Counter, t.counter c = 0) ∧
    t.slot .started = .pending 1 .powerOn ∧ (∀ k, k ≠ .started → t.slot k = .idle) ∧ t.noticeSeq = 0 ∧
    t.loopLine = .flags ∧ t.portLine = .flags

/-- While power-on reset is asserted both transmit lines are held at one and no command but the pin's own has an effect
(R63, R127; that the rest waits is the model's reading, log entry 9). -/
def Obligations.AssertedResetHoldsThePart : Prop :=
  (∀ s : State, ∃ t, exec .powerOnResetAssert s = .next t ∧ t.resetAsserted = true ∧ t.loopLine = .ones ∧
    t.portLine = .ones ∧ t.strapped = s.strapped ∧ t.transit = [] ∧ t.timer = 0 ∧ t.pending = s.pending) ∧
  ∀ (c : Instr) (s : State), s.resetAsserted = true → (∀ g m, c ≠ .powerOnReset g m) → c ≠ .powerOnResetAssert →
    exec c s = .next s

/-! ### The line code -/

/-- The line code: an octet's bits, zero insertion, the flag and the abort pattern. A frame's line bits, received, are a flag,
the frame's octets in order, and a flag, with no data bit left over; the bits of a copy still open bring a flag and its octets
but at most the last, and no second flag; the abort pattern and its flag are one abort and one flag, whatever ones and data
went before (R1, R2, R5, R60, R61). -/
def Obligations.LineCodeRoundTrip : Prop :=
  (∀ v : Byte, octetBits v = (List.range 8).map (fun i => v.getLsbD i)) ∧
  (∀ (run : Nat) (bits : List Bool), stuff run [] = [] ∧ stuff run (false :: bits) = false :: stuff 0 bits ∧
    stuff run (true :: bits) = if run = 4 then true :: false :: stuff 0 bits else true :: stuff (run + 1) bits) ∧
  (flagBits = [false, true, true, true, true, true, true, false] ∧ abortBits = List.replicate 8 true) ∧
  (∀ octets : List Byte, frameBits octets = flagBits ++ (stuff 0 (octets.flatMap octetBits) ++ flagBits) ∧
    (⟨0, []⟩ : LineRx).bits (frameBits octets) =
      (⟨0, []⟩, .flag [] :: (octets.map LineEvent.octet ++ [.flag []]))) ∧
  (∀ octets : List Byte, ∃ n, octets.length ≤ n + 1 ∧
    ((⟨0, []⟩ : LineRx).bits (flagBits ++ (LineOut.openFrame octets).bits)).2 =
      .flag [] :: (octets.take n).map LineEvent.octet) ∧
  ∀ l : LineRx, l.run ≤ 6 → l.bits (abortBits ++ flagBits) = (⟨0, []⟩, [.abort, .flag []])

/-- One bit of a receive line, as the table of R1 has it, in every framing state. A one adds to the run count, the seventh is
an abort, the fifteenth line idle; a zero sets the count to 0 and settles the ones held with itself, without itself after
five, is a flag after six, with its data bit back out of the collector (R2), and ends an abort after seven or more; the eighth
bit in the collector completes an octet, and what is settled beyond it stays; no data is passed in HUNT (R1 to R3, R5). Station
line: the command each of these is, by framing and port state; a zero counts in the zero run, a one sets it to 0, and in HUNT
while ACTIVE the thirty-second is PORT_BREAK (R115 to R117). The octet and flag operands are log entry 10's, PORT_BREAK's log
entry 8's; that an octet or a flag of the loop line then brings one octet time of the loop transmitter is log entry 6's. -/
def Obligations.LinesBitByBit : Prop :=
  (∀ s : State, s.resetAsserted = false → s.rx.collector.length ≤ 7 →
    let data : List Bool := List.replicate s.rx.run true ++ (if s.rx.run ≤ 4 then [false] else [])
    let held := s.rx.collector ++ data
    let kept (bits : List Bool) : List Bool := if s.rx.state = .hunt then [] else bits
    (s.rx.run ≠ 6 → s.rx.run ≠ 14 →
      s.loopBit true = { s with rx := ⟨s.rx.state, s.rx.run + 1, kept s.rx.collector⟩ }) ∧
    (s.rx.run = 6 → exec .loopAbort s = .next (s.loopBit true)) ∧
    (s.rx.run = 14 → exec .lineIdle s = .next (s.loopBit true)) ∧
    (s.rx.run ≤ 5 → held.length < 8 → s.loopBit false = { s with rx := ⟨s.rx.state, 0, kept held⟩ }) ∧
    (s.rx.run ≤ 5 → 8 ≤ held.length →
      exec (.loopOctet (octetOf (held.take 8)) (held.drop 8) 1) s = .next (s.loopBit false)) ∧
    (s.rx.run = 6 →
      exec (.loopFlag (if s.rx.collector.getLast? = some false then s.rx.collector.dropLast else s.rx.collector) 1) s =
        .next (s.loopBit false)) ∧
    (7 ≤ s.rx.run → s.loopBit false = { s with rx := ⟨s.rx.state, 0, []⟩ })) ∧
  (∀ v : Byte, octetOf (octetBits v) = v) ∧
  ∀ s : State, s.resetAsserted = false → s.srx.collector.length ≤ 7 →
    let data : List Bool := List.replicate s.srx.run true ++ (if s.srx.run ≤ 4 then [false] else [])
    let held := s.srx.collector ++ data
    let kept (bits : List Bool) : List Bool := if s.srx.state = .hunt then [] else bits
    let tail := if s.srx.collector.getLast? = some false then s.srx.collector.dropLast else s.srx.collector
    let outside : Prop := s.srx.state = .hunt ∨ s.srx.state = .fill
    let breaks : Prop := s.port = .active ∧ s.srx.state = .hunt ∧ 32 ≤ s.srx.zeroRun + 1
    let one (c : Instr) : Prop := exec c s = .next (s.stationBit true)
    let zero (c : Instr) : Prop := exec c s = .next (s.stationBit false)
    (s.srx.run ≠ 6 → s.srx.run ≠ 14 →
      s.stationBit true = { s with srx := ⟨s.srx.state, s.srx.run + 1, 0, kept s.srx.collector⟩ }) ∧
    (s.srx.run = 6 → outside → one (.stationAbort false)) ∧
    (∀ f info, s.srx.run = 6 → s.srx.state = .frame f info → one (.stationFrameDiscard .abort)) ∧
    (s.srx.run = 14 → one (.stationAbort true)) ∧
    (s.srx.run ≤ 5 ∧ held.length < 8 ∨ 7 ≤ s.srx.run →
      (breaks → zero (.portBreak [false])) ∧
      (¬ breaks →
        s.stationBit false =
          { s with srx := ⟨s.srx.state, 0, s.srx.zeroRun + 1, if s.srx.run ≤ 5 then kept held else []⟩ })) ∧
    (s.srx.run ≤ 5 → 8 ≤ held.length →
      (outside → zero (.stationOctet (octetOf (held.take 8)) (held.drop 8))) ∧
      ∀ f info, s.srx.state = .frame f info →
        (f.count < 9 ∨ f.count ≠ 9 + f.declared.getD 0 + 2 →
          zero (.stationOctet (octetOf (held.take 8)) (held.drop 8))) ∧
        (9 ≤ f.count → f.count = 9 + f.declared.getD 0 + 2 →
          zero (.stationFrameDiscard (.excess (octetOf (held.take 8)) (held.drop 8))))) ∧
    (s.srx.run = 6 →
      (s.port = .break → zero .portBreakEnd) ∧
      (s.port = .active → outside → zero (.stationFlag tail)) ∧
      ∀ f info, s.port = .active → s.srx.state = .frame f info →
        let good : Prop := tail = [] ∧ 11 ≤ f.count ∧ 9 + f.declared.getD 0 + 2 ≤ f.count ∧ f.fcsGood = true
        (good → zero .stationFrameGood) ∧ (¬ good → zero (.stationFrameDiscard (.flag tail))))

/-- The loop frame's octets: the header by the table of 11.1, the info, the FCS by the steps of R10. A frame the part sends,
with the FCS it makes, is received whole: it ends GOOD, and the header read back is the header sent (R5, R6, R10, R11, R12,
R190). -/
def Obligations.SentFrameEndsGood : Prop :=
  (∀ (rem : Word16) (b : Bool),
    fcsBit rem b = if b = rem.getLsbD 0 then rem >>> 1 else (rem >>> 1) ^^^ 0x8408#16) ∧
  (∀ (rem : Word16) (v : Byte),
    fcsOctet rem v = ((List.range 8).map (fun i => v.getLsbD i)).foldl fcsBit rem) ∧
  (∀ octets : List Byte,
    let field : Word16 := ~~~ octets.foldl fcsOctet 0xFFFF#16
    withFcs octets = octets ++ [field.extractLsb' 0 8, field.extractLsb' 8 8]) ∧
  ∀ (h : Header) (info : List Byte), h.tally.hops ≤ 63 → h.declared = info.length → info.length ≤ 65535 →
    let f := (loopFrame h info).foldl (RxFrame.push 0) RxFrame.empty
    let tally := h.tally.hops + (if h.tally.claimed then 64 else 0) + (if h.tally.refused then 128 else 0)
    (h.octets =
      [h.da.group, h.da.member, h.sa.group, h.sa.member, h.kind, oct tally, oct (h.declared / 256), oct h.declared]) ∧
    loopFrame h info = withFcs (h.octets ++ info) ∧
    f.count = 8 + info.length + 2 ∧ f.judge 0 false = .good ∧ Header.ofOctets 0 f.head = h

/-- A whole frame that no table entry matches and DEFAULT_ACTION passes goes through the part: its octets and its closing
flag leave one new transit entry, GOOD and wholly released, whose copy is the same frame with hops one greater and a new
FCS (R37, R47, R49 to R52, R56). That a GOOD copy is shown on the line as its whole frame is log entry 16's; the octet operands
with the bits settled beyond an octet are log entry 10's, whatever they are; the octet times of the loop transmitter, by which
octets sent of the older entries may have risen, log entry 6's. -/
def Obligations.PassedFrameIsForwardedWhole : Prop :=
  ∀ (s : State) (h : Header) (info : List Byte) (os : List (Byte × List Bool × Nat))
      (times : Nat),
    os.map Prod.fst = loopFrame h info →
    s.resetAsserted = false → s.readyHead = none → s.mode = .service → s.rx.state = .fill →
    h.tally.hops ≤ 63 → h.declared = info.length → info.length ≤ 512 →
    some h.sa ∉ s.identity.toList → h.tally.hops < s.params.hopLimit → ¬ (h.da = s.strapped ∧ h.kind = 0x02) →
    (∀ e ∈ s.active, e.rule.key.admits h.da = false) → s.params.defaultAction = .pass →
    s.transit.length < 6 → (s.transit.map (fun e => e.reservation)).sum + (8 + h.declared) ≤ 1280 →
    ∃ (t : State) (older : List TransitEntry) (e : TransitEntry),
      runs (os.map (fun o => Instr.loopOctet o.1 o.2.1 o.2.2) ++ [.loopFlag [] times]) s = some t ∧
      t.transit = older ++ [e] ∧
      older.map (fun x => { x with sent := 0 }) = s.transit.map (fun x => { x with sent := 0 }) ∧
      e.status = .good ∧ e.sending = .no ∧ e.sent = 0 ∧ e.reservation = 8 + info.length ∧ e.released = e.reservation ∧
      e.line = .frame (loopFrame { h with tally := { h.tally with hops := h.tally.hops + 1 } } info) ∧
      t.rx = ⟨.fill, 0, []⟩ ∧ t.verdict = none ∧ t.counters = s.counters

/-! ### The end of an event -/

/-- What an event that may have made a request or a notice ready ends with, `State.settle`. A head is ready when it is complete
and its reply path has a place (R136); it is carried out, and the event goes on with the next; the row of its command, given
there, is that same carrying out, so what the statements of the requests below say of a row is what the event does. With no
head ready, and with no notice that may be sent or waits or no place for one, nothing is left to do. That both come last in
the event is log entry 4's. -/
def Obligations.EventEndsCarryingOut : Prop :=
  ∀ s : State, s.resetAsserted = false →
    (∀ r, s.readyHead = some r ↔
      ∃ rest, s.requests = r :: rest ∧ r.complete = true ∧
        ((∃ sa, r.source = .loop sa) → s.own.length < 6) ∧ ((∃ tag, r.source = .station tag) → s.replies.length < 2)) ∧
    (∀ r, s.readyHead = some r → s.settle = (s.carryOut r).settle ∧
      ∀ row ∈ ([(.badCommand, none), (.status, some .status), (.paramRead, some .paramRead),
          (.paramWrite, some .paramWrite), (.listRead, some .listRead), (.listWrite, some .listWrite),
          (.tableRead, some .tableRead), (.countersRead, some .countersRead), (.sessionOpen, some .sessionOpen),
          (.entryInsert, some .entryInsert), (.entryReplace, some .entryReplace), (.entryRemove, some .entryRemove),
          (.sessionCommit, some .sessionCommit), (.sessionDiscard, some .sessionDiscard),
          (.noticeAck, some .noticeAck), (.restart, some .restart)] : List (Instr × Option Command)),
        r.command = row.2 → exec row.1 s = .next s.settle) ∧
    (s.readyHead = none →
      s.params.noticeDest = ⟨0, 0⟩ ∨ 6 ≤ s.own.length ∨
        (∀ k, (s.slot k).isPending = false ∧ (s.slot k).resendWaits = false) →
      s.settle = s)

/-! ### The loop receiver and the line supervisor -/

/-- The eighth octet: the steps of the verdict procedure before the table, in both modes (R7, R31 to R35, R39, R43). The octet
operand with the bits settled beyond it is log entry 10's, the octet times of the loop transmitter log entry 6's. -/
def Obligations.HeaderVerdictBeforeTable : Prop :=
  ∀ (v : Byte) (rest : List Bool) (times : Nat) (f : RxFrame) (s : State), s.resetAsserted = false → s.rx.state = .frame f →
    f.count = 7 →
    let h := Header.ofOctets 0 (f.head ++ [v])
    let s1 : State :=
      { s.octetTimes times with
        rx := ⟨.frame ⟨8, fcsOctet f.fcs v, f.head ++ [v], some h.declared, f.check⟩, 0, rest⟩ }
    let becomes (t : State) : Prop := exec (.loopOctet v rest times) s = .next t.settle
    (512 < h.declared →
      becomes { s1.count .badHeader with verdict := some ⟨.badHeader, none, none, false, false, none, none⟩ }) ∧
    (h.declared ≤ 512 → s.mode = .service → some h.sa ∈ s.identity.toList →
      becomes { s1.stripHeader h with verdict := some ⟨.strip, none, none, false, false, none, none⟩ }) ∧
    (h.declared ≤ 512 → (s.mode = .service → some h.sa ∉ s.identity.toList) → s.params.hopLimit ≤ h.tally.hops →
      becomes
        { (s1.count .orphaned).raise .orphan (.address h.sa) with
          verdict := some ⟨.orphan, none, none, false, false, none, none⟩ }) ∧
    (h.declared ≤ 512 → s.mode = .repeater → h.tally.hops < s.params.hopLimit →
      becomes { s1.reserveTransit h none with verdict := some ⟨.pass, none, none, true, false, none, none⟩ }) ∧
    (h.declared ≤ 512 → s.mode = .service → some h.sa ∉ s.identity.toList → h.tally.hops < s.params.hopLimit →
      h.da = s.strapped → h.kind = 0x02 → s.requests.length < 4 →
      becomes
        { ({ s1 with requests := s.requests ++ [⟨.loop h.sa, [], false⟩] } : State).reserveTransit h
            (some .claimed) with
          verdict := some ⟨.manage, none, none, true, false, some .kept, some .claimed⟩ }) ∧
    (h.declared ≤ 512 → s.mode = .service → some h.sa ∉ s.identity.toList → h.tally.hops < s.params.hopLimit →
      h.da = s.strapped → h.kind = 0x02 → 4 ≤ s.requests.length →
      becomes
        { (s1.count .mgmtDropped).reserveTransit h (some .refused) with
          verdict := some ⟨.manage, none, none, true, false, some .refused, some .refused⟩ })

/-- The eighth octet: step 5, by the first matching entry, whose hit count rises, or by DEFAULT_ACTION (R28, R29, R36 to
R39). The octet operand is log entry 10's, the octet times of the loop transmitter log entry 6's. -/
def Obligations.HeaderVerdictByTable : Prop :=
  ∀ (v : Byte) (rest : List Bool) (times : Nat) (f : RxFrame) (s : State), s.resetAsserted = false → s.rx.state = .frame f →
    f.count = 7 →
    let h := Header.ofOctets 0 (f.head ++ [v])
    let s1 : State :=
      { s.octetTimes times with
        rx := ⟨.frame ⟨8, fcsOctet f.fcs v, f.head ++ [v], some h.declared, f.check⟩, 0, rest⟩ }
    let becomes (t : State) : Prop := exec (.loopOctet v rest times) s = .next t.settle
    h.declared ≤ 512 → s.mode = .service → some h.sa ∉ s.identity.toList → h.tally.hops < s.params.hopLimit →
    ¬ (h.da = s.strapped ∧ h.kind = 0x02) →
    (∀ (p : Nat) (e : TableEntry), s.active[p]? = some e → e.rule.key.admits h.da = true →
      (∀ j < p, ∀ x, s.active[j]? = some x → x.rule.key.admits h.da = false) →
      let s2 : State := { s1 with active := s.active.set p { e with hits := min (e.hits + 1) 65535 } }
      let d := s2.reserveDelivery h (some e.rule.label)
      let marks : Option Mark :=
        if e.rule.policy = .quiet then none else some (if d.1 = .kept then .claimed else .refused)
      becomes
        (match e.rule.action with
        | .pass =>
          { s2.reserveTransit h none with
            verdict := some ⟨.pass, some e.rule.label, some e.rule.policy, true, false, none, none⟩ }
        | .copy =>
          { d.2.reserveTransit h marks with
            verdict := some ⟨.copy, some e.rule.label, some e.rule.policy, true, true, some d.1, marks⟩ }
        | .drop =>
          { s2.count .dropped with
            verdict := some ⟨.drop, some e.rule.label, some e.rule.policy, false, false, none, none⟩ })) ∧
    ((∀ e ∈ s.active, e.rule.key.admits h.da = false) →
      let d := s1.reserveDelivery h none
      let mark : Mark := if d.1 = .kept then .claimed else .refused
      becomes
        (match s.params.defaultAction with
        | .pass => { s1.reserveTransit h none with verdict := some ⟨.pass, none, none, true, false, none, none⟩ }
        | .copy =>
          { d.2.reserveTransit h (some mark) with
            verdict := some ⟨.copy, none, none, true, true, some d.1, some mark⟩ }
        | .drop => { s1.count .dropped with verdict := some ⟨.drop, none, none, false, false, none, none⟩ }))

/-- Octets after the header: an info octet goes to the entries the verdict engaged, which store it, the transit entry
holding back its last; the FCS octets are kept by the receiver; the excess octet ends the frame LENGTH and the receiver hunts
(R5, R8, R13, R50, R51, R104, R134). The octet operand is log entry 10's, the octet times of the loop transmitter log entry
6's. -/
def Obligations.OctetAfterHeader : Prop :=
  ∀ (v : Byte) (rest : List Bool) (times : Nat) (f : RxFrame) (d : Nat) (s : State), s.resetAsserted = false →
    s.rx.state = .frame f → 8 ≤ f.count → f.declared = some d →
    let s0 := s.octetTimes times
    let becomes (t : State) : Prop := exec (.loopOctet v rest times) s = .next t.settle
    (f.count < 8 + d →
      becomes
        { s0 with
          rx := ⟨.frame { f with count := f.count + 1, fcs := fcsOctet f.fcs v }, 0, rest⟩
          transit :=
            if s.verdict.map (fun r => r.forward) = some true then
              modifyLast TransitEntry.arriving (TransitEntry.takeOctet v) s0.transit
            else s0.transit
          delivery :=
            if s.verdict.map (fun r => r.keepsCopy) = some true then
              modifyLast DeliveryEntry.arriving (DeliveryEntry.takeOctet v) s.delivery
            else s.delivery
          requests :=
            if s.verdict.map (fun r => r.keepsRequest) = some true then
              s.requests.map (fun r => if r.isLoop ∧ ¬ r.complete then { r with octets := r.octets ++ [v] } else r)
            else s.requests }) ∧
    (8 + d ≤ f.count → f.count < 8 + d + 2 →
      becomes { s0 with rx := ⟨.frame { f with count := f.count + 1, check := f.check ++ [v] }, 0, rest⟩ }) ∧
    (f.count = 8 + d + 2 → becomes { s0.frameEnd .length with rx := ⟨.hunt, 0, []⟩ }) ∧
    (∀ (older : List TransitEntry) (e : TransitEntry),
      modifyLast TransitEntry.arriving (TransitEntry.takeOctet v) (older ++ [e]) =
        older ++
          [if e.status = .arriving ∧ e.sending ≠ .abandoned then
            { e with info := e.info ++ [v], received := e.received + 1,
                     released := if e.received + 1 < e.reservation then e.received + 1 else e.released }
          else e]) ∧
    (∀ (older : List DeliveryEntry) (e : DeliveryEntry),
      modifyLast DeliveryEntry.arriving (DeliveryEntry.takeOctet v) (older ++ [e]) =
        older ++ [if e.status = .arriving then { e with info := e.info ++ [v], copied := e.copied + 1 } else e])

/-- A flag in FRAME ends the frame with the first condition of R12 that applies; the supervisor records it, and a GOOD end
brings a DOWN line UP (R5, R11, R12, R17, R19). The operand, the collector at the flag, is log entry 10's; the octet times of
the loop transmitter log entry 6's; that the frame's end comes before LINE_UP is log entry 18's. -/
def Obligations.FlagEndsFrame : Prop :=
  ∀ (tail : List Bool) (times : Nat) (f : RxFrame) (s : State), s.resetAsserted = false → s.rx.state = .frame f →
    let c : EndCond :=
      if tail ≠ [] then .ragged
      else if f.count < 10 then .runt
      else if f.count < 8 + f.declared.getD 0 + 2 then .length
      else if f.fcsGood then .good
      else .badFcs
    let s1 : State := { (s.octetTimes times).frameEnd c with rx := ⟨.fill, 0, []⟩ }
    let t : State :=
      if s.sup.line = .down ∧ c = .good then
        { s1 with sup := ⟨.up, s.timer, s.sup.downAt, true⟩ }.raise .lineUp (.time s.sup.downAt)
      else { s1 with sup := ⟨s.sup.line, s.timer, s.sup.downAt, decide (c = .good)⟩ }
    exec (.loopFlag tail times) s = .next t.settle ∧
    (f.fcsGood = true ↔ ∃ lo hi : Byte, f.check = [lo, hi] ∧ ~~~ (hi ++ lo : Word16) = f.fcs)

/-- Octets and flags before a header is complete: an octet is ignored in HUNT, begins a frame in FILL, and is kept as one of
the header octets 2 to 7 in FRAME, in the FCS and with no event; at a flag outside a frame the receiver fills, the bits before
it are discarded, and on a DOWN line with the marker set the line becomes UP (R3, R4, R5, R10, R17, R19). The operands are log
entry 10's, the octet times of the loop transmitter log entry 6's. -/
def Obligations.LoopLineBetweenFrames : Prop :=
  ∀ (s : State) (times : Nat), s.resetAsserted = false →
    let s0 := s.octetTimes times
    (∀ v rest,
      let becomes (rx : LoopRx) : Prop := exec (.loopOctet v rest times) s = .next ({ s0 with rx := rx } : State).settle
      (s.rx.state = .hunt → becomes ⟨.hunt, 0, []⟩) ∧
      (s.rx.state = .fill → becomes ⟨.frame ⟨1, fcsOctet 0xFFFF#16 v, [v], none, []⟩, 0, rest⟩) ∧
      ∀ f, s.rx.state = .frame f → f.count < 7 →
        becomes
          ⟨.frame { f with count := f.count + 1, fcs := fcsOctet f.fcs v, head := f.head ++ [v] }, 0, rest⟩) ∧
    ∀ tail, s.rx.state = .hunt ∨ s.rx.state = .fill →
      let t : State :=
        if s.sup.line = .down ∧ s.sup.marker = true then
          { s0 with rx := ⟨.fill, 0, []⟩, sup := ⟨.up, s.timer, s.sup.downAt, true⟩ }.raise .lineUp
            (.time s.sup.downAt)
        else { s0 with rx := ⟨.fill, 0, []⟩, sup := ⟨s.sup.line, s.timer, s.sup.downAt, true⟩ }
      exec (.loopFlag tail times) s = .next t.settle

/-- The seventh one, and line idle: a frame ends ABORTED, the receiver hunts, the marker is cleared (R1, R3, R4, R14,
R17). That line idle in FRAME ends the frame is the model's, log entry 11. -/
def Obligations.AbortAndIdle : Prop :=
  ∀ s : State, s.resetAsserted = false →
    (∀ f, s.rx.state = .frame f →
      let ended (run : Nat) : State :=
        { s.frameEnd (.aborted .abort) with rx := ⟨.hunt, run, []⟩, sup := { s.sup with marker := false } }
      exec .loopAbort s = .next (ended 7).settle ∧ exec .lineIdle s = .next (ended 15).settle) ∧
    (s.rx.state = .hunt ∨ s.rx.state = .fill →
      let hunting (run : Nat) : State := { s with rx := ⟨.hunt, run, []⟩, sup := { s.sup with marker := false } }
      exec .loopAbort s = .next (hunting 7).settle ∧ exec .lineIdle s = .next (hunting 15).settle)

/-- The silence deadline: the line goes DOWN, LINE_DOWN is raised with the last flag's time, a frame ends ABORTED, the
receiver hunts (R14, R16, R18). That LINE_DOWN's copy precedes the frame's COMPLETION is log entry 18's. Before the deadline,
or on a DOWN line, the command brings nothing: log entry 2's. -/
def Obligations.SilenceDeadline : Prop :=
  ∀ s : State, s.resetAsserted = false →
    (s.sup.line = .down ∨ (s.timer - s.sup.lastFlag).toNat < s.params.lineSilence →
      exec .lineSilenceDeadline s = .next s.settle) ∧
    (s.sup.line = .up → s.params.lineSilence ≤ (s.timer - s.sup.lastFlag).toNat →
      let s1 := s.raise .lineDown (.time s.sup.lastFlag)
      let down (t : State) : State :=
        { t with rx := ⟨.hunt, s.rx.run, []⟩, sup := ⟨.down, s.sup.lastFlag, s.timer, false⟩ }
      (∀ f, s.rx.state = .frame f →
        exec .lineSilenceDeadline s = .next (down (s1.frameEnd (.aborted .silence))).settle) ∧
      (s.rx.state = .hunt ∨ s.rx.state = .fill → exec .lineSilenceDeadline s = .next (down s1).settle))

/-- What a frame's end does, by its verdict record: the transit entry, the copy being sent, the delivery entry, the request
and the RETURNING entry close, RX_BAD and STRIPPED are counted, the record is released; nothing else changes (R9, R15, R30,
R40, R52 to R54, R58, R89, R90, R93, R105, R106, R134). The abort and the freed reservation in the event itself are log
entry 7's; that no COMPLETION is placed outside ACTIVE is log entry 14's. -/
def Obligations.FrameEndClosesBlocks : Prop :=
  (∀ (c : EndCond) (s : State), s.verdict = none →
    s.frameEnd c =
      if c = .good then s else { s.count .rxBad with sup := { s.sup with marker := false } }) ∧
  ∀ (c : EndCond) (r : VerdictRecord) (s : State), s.verdict = some r →
    let t := s.frameEnd c
    (t = { s with
      verdict := none, transit := t.transit, ltx := t.ltx, delivery := t.delivery, requests := t.requests,
      log := t.log, reports := t.reports, counters := t.counters,
      sup := { s.sup with marker := s.sup.marker && decide (c = .good) } }) ∧
    (∀ k : Counter, t.counter k = s.counter k + (if k = .rxBad ∧ c ≠ .good then 1 else 0) +
      (if k = .stripped ∧ r.verdict = .strip ∧ s.log.any (fun e => !e.isOutstanding) then 1 else 0)) ∧
    (∀ (older : List TransitEntry) (e : TransitEntry), s.transit = older ++ [e] → r.forward = true → e.status = .arriving →
      (t.transit =
        if c = .good ∧ e.sending ≠ .abandoned then older ++ [{ e with status := .good, released := e.reservation }]
        else older) ∧
      (t.ltx = if c ≠ .good ∧ e.sending = .yes then .aborting else s.ltx)) ∧
    (r.forward = false ∨ (∀ e, s.transit.getLast? = some e → e.status ≠ .arriving) →
      t.transit = s.transit ∧ t.ltx = s.ltx) ∧
    (∀ (older : List DeliveryEntry) (e : DeliveryEntry), s.delivery = older ++ [e] → r.verdict = .copy →
        r.take = some .kept → e.status = .arriving →
      t.delivery = if c = .good then older ++ [{ e with status := .good }] else older) ∧
    (r.verdict ≠ .copy ∨ r.take ≠ some .kept ∨ (∀ e, s.delivery.getLast? = some e → e.status ≠ .arriving) →
      t.delivery = s.delivery) ∧
    (t.requests =
      if r.verdict = .manage ∧ r.take = some .kept then
        if c = .good then
          s.requests.map (fun q => if q.isLoop ∧ ¬ q.complete then { q with complete := true } else q)
        else s.requests.filter (fun q => !(q.isLoop && !q.complete))
      else s.requests) ∧
    (∀ (older newer : List LogEntry) (e : LogEntry) (tally : Tally), r.verdict = .strip → s.log = older ++ e :: newer →
      (∀ x ∈ older, x.state = .outstanding) → e.state = .returning tally →
      t.log = older ++ newer ∧
      (t.reports = s.reports ++
        match e.origin with
        | .own => []
        | .station tag cls =>
          if e.silent = false ∧ s.port = .active then
            [.completion tag cls e.seq (if c = .good then .returned tally else .damaged tally)]
          else [])) ∧
    (r.verdict ≠ .strip ∨ (∀ x ∈ s.log, x.state = .outstanding) → t.log = s.log ∧ t.reports = s.reports)

/-! ### Reservations -/

/-- The two reservations at a header. Transit: an entry with the rewritten header joins the tail, or the refusal is counted
and raised with the SA (R45, R47 to R49, R51). Delivery: KEPT with an entry at the tail, or REFUSED, counted and raised with
the label or none, always so while the port is in BREAK (R99, R101 to R103). -/
def Obligations.ReservationsAtTheHeader : Prop :=
  ∀ (h : Header) (s : State),
    (∀ marks : Option Mark,
      (s.transit.length < 6 → (s.transit.map (fun e => e.reservation)).sum + (8 + h.declared) ≤ 1280 →
        s.reserveTransit h marks =
          { s with
            transit := s.transit ++
              [⟨8 + h.declared,
                { h with tally := ⟨h.tally.hops + 1, h.tally.claimed || decide (marks = some .claimed),
                                   h.tally.refused || decide (marks = some .refused)⟩ },
                [], 8, if h.declared = 0 then 7 else 8, 0, .arriving, .no⟩] }) ∧
      (6 ≤ s.transit.length ∨ 1280 < (s.transit.map (fun e => e.reservation)).sum + (8 + h.declared) →
        s.reserveTransit h marks = (s.count .transitRefused).raise .transitRefused (.address h.sa))) ∧
    ∀ label : Option Byte,
      (s.port = .active → s.delivery.length < 12 →
        (s.delivery.map (fun e => e.reservation)).sum + (1 + 8 + h.declared) ≤ 2048 →
        s.reserveDelivery h label =
          (.kept, { s with delivery := s.delivery ++ [⟨1 + 8 + h.declared, h, [], 8, .arriving, false⟩] })) ∧
      (s.port = .break ∨ 12 ≤ s.delivery.length ∨
          2048 < (s.delivery.map (fun e => e.reservation)).sum + (1 + 8 + h.declared) →
        s.reserveDelivery h label =
          (.refused, (s.count .deliveryRefused).raise .deliveryRefused (label.elim .none .label)))

/-! ### The arbiter and the loop transmitter -/

/-- A copy on the downstream line: the arbiter begins it when the head meets the start condition, and a head that does not
holds back everything; each octet time sends one released octet; an underrun abandons the head and aborts; the closing flag
counts FORWARDED and frees the entry. An insertion's closing flag counts INSERTED, and the flag after an abort leads to IDLE.
And what the line carries in each state of the transmitter (R46, R51, R55 to R57, R59 to R61, R70, R75, R77). The octet
times a command brings, here UNDERRUN's own, and that FORWARD_COMPLETE says that every octet has been sent, are log entry 6's;
that a command whose event cannot occur brings nothing but those, UNDERRUN while octets are still to be sent among them, is log
entry 2's; that a GOOD copy is shown as its whole frame is log entry
16's. -/
def Obligations.TransmitterEvents : Prop :=
  ∀ s : State, s.resetAsserted = false →
    (∀ e es, s.ltx = .idle → s.transit = e :: es →
      (e.sending = .no → e.status = .good ∨ s.params.cutLead ≤ e.released →
        exec .arbiterChoice s = .next
          ({ s with transit := { e with sending := .yes } :: es, ltx := .forwarding } : State).settle) ∧
      (e.sending ≠ .no ∨ (e.status ≠ .good ∧ e.released < s.params.cutLead) →
        exec .arbiterChoice s = .next s.settle)) ∧
    (s.ltx ≠ .idle → exec .arbiterChoice s = .next s.settle) ∧
    (∀ e es, s.transit = e :: es → s.ltx = .forwarding →
      (∀ times,
        let sent : Nat := if e.sending = .yes then e.sent + min times (e.released - e.sent) else e.sent
        let t : State := { s with transit := { e with sent := sent } :: es }
        (s.octetTimes times = t) ∧
        (e.sending = .yes → e.status = .arriving → sent = e.released →
          exec (.underrun times) s = .next
            ({ (s.count .underrun).raise .underrun (.address e.header.sa) with
              transit := { e with sending := .abandoned, sent := sent } :: es, ltx := .aborting } : State).settle) ∧
        (e.sending ≠ .yes ∨ e.status ≠ .arriving ∨ sent ≠ e.released → exec (.underrun times) s = .next t.settle)) ∧
      (s.loopLine = if e.status = .good then .frame (loopFrame e.header e.info)
        else .openFrame ((e.header.octets ++ e.info).take e.sent)) ∧
      (e.sending = .yes →
        (e.status = .good → exec .forwardComplete s = .next { s.count .forwarded with transit := es, ltx := .idle }) ∧
        (e.status ≠ .good → exec .forwardComplete s = .next s))) ∧
    (s.ltx ≠ .forwarding →
      (∀ times, s.octetTimes times = s ∧ exec (.underrun times) s = .next s.settle) ∧ exec .forwardComplete s = .next s) ∧
    (s.ltx = .idle → s.loopLine = .flags) ∧
    (∀ f, s.ltx = .inserting f → exec .insertionEnd s = .next { s.count .inserted with ltx := .idle }) ∧
    (∀ f, s.ltx = .inserting (.own f) → s.loopLine = .frame (loopFrame f.header f.info)) ∧
    (∀ f, s.ltx = .inserting (.station f) →
      s.loopLine = .frame (loopFrame ⟨f.da, f.sa, f.kind, ⟨0, false, false⟩, f.declared⟩ f.info)) ∧
    ((∀ f, s.ltx ≠ .inserting f) → exec .insertionEnd s = .next s) ∧
    (s.ltx = .aborting → s.loopLine = .abort ∧ exec .abortComplete s = .next { s with ltx := .idle }) ∧
    (s.ltx ≠ .aborting → exec .abortComplete s = .next s)

/-- The arbiter with no transit entry: which head starts, by the gates, the order and the fairness exception, and what its
start leaves: the queue, the fairness count, the return log entry with the next sequence, INSERTING, and a PORT STATUS where
a class queue was full (R69 to R76, R83, R84, R123). -/
def Obligations.InsertionOrder : Prop :=
  ∀ s : State, s.resetAsserted = false → s.ltx = .idle → s.transit = [] →
    let excepts : Prop := s.normal ≠ [] ∧ s.params.normalFair ≤ s.fairness
    let entry (o : Origin) (da sa : Address) (kind : Byte) (declared : Nat) : LogEntry :=
      ⟨nextSeq s.logSeq s.log, o, da, sa, kind, declared, s.timer, .outstanding, false⟩
    let counted : Nat := if s.normal = [] then s.fairness else min (s.fairness + 1) 15
    let becomes (t : State) : Prop := exec .arbiterChoice s = .next t.settle
    (16 ≤ s.log.length → becomes s) ∧
    (∀ f rest, s.log.length < 16 → s.own = f :: rest → (¬ excepts ∨ 16 ≤ s.budget) →
      becomes
        { s with
          own := rest, fairness := counted, ltx := .inserting (.own f)
          log := s.log ++ [entry .own f.header.da f.header.sa f.header.kind f.header.declared]
          logSeq := nextSeq s.logSeq s.log + 1 }) ∧
    (∀ f rest, s.log.length < 16 → s.budget < 16 → s.own = [] → ¬ excepts → s.urgent = f :: rest →
      let t : State :=
        { s with
          urgent := rest, fairness := counted, ltx := .inserting (.station f)
          log := s.log ++ [entry (.station f.tag f.cls) f.da f.sa f.kind f.declared]
          logSeq := nextSeq s.logSeq s.log + 1 }
      becomes (if s.urgent.length = 8 then t.causeStatus else t)) ∧
    (∀ f rest, s.log.length < 16 → s.budget < 16 → (excepts ∨ (s.own = [] ∧ s.urgent = [])) → s.normal = f :: rest →
      let t : State :=
        { s with
          normal := rest, fairness := 0, ltx := .inserting (.station f)
          log := s.log ++ [entry (.station f.tag f.cls) f.da f.sa f.kind f.declared]
          logSeq := nextSeq s.logSeq s.log + 1 }
      becomes (if s.normal.length = 8 then t.causeStatus else t)) ∧
    (s.own = [] → 16 ≤ s.budget → becomes s) ∧
    (s.own = [] → s.urgent = [] → s.normal = [] → becomes s)

/-- While the log has room, the sequence an insertion takes is the first from the counter upward that no entry holds, within
16 steps (R84). -/
def Obligations.NextSequenceIsFirstFree : Prop :=
  ∀ (counter : Byte) (log : List LogEntry), log.length < 16 →
    ∃ k < 16, nextSeq counter log = counter + BitVec.ofNat 8 k ∧
      (∀ e ∈ log, e.seq ≠ nextSeq counter log) ∧ ∀ j < k, ∃ e ∈ log, e.seq = counter + BitVec.ofNat 8 j

/-! ### The return log -/

/-- A STRIP header: a stray is counted; otherwise the oldest entry of its frame identity becomes RETURNING with the header's
tally and the OUTSTANDING entries older than it close LOST, counted and reported oldest first (R86 to R88, R93). That none is
reported outside ACTIVE is log entry 14's. -/
def Obligations.StripMatchesOldest : Prop :=
  ∀ (h : Header) (s : State),
    let same (e : LogEntry) : Prop := e.da = h.da ∧ e.sa = h.sa ∧ e.kind = h.kind ∧ e.declared = h.declared
    ((∀ e ∈ s.log, ¬ same e) → s.stripHeader h = s.count .stray) ∧
    ∀ (older newer : List LogEntry) (e : LogEntry), s.log = older ++ e :: newer → (∀ x ∈ older, ¬ same x) → same e →
      let lost := older.filter (fun x => decide (x.state = .outstanding))
      let t := s.stripHeader h
      (t = { s with log := t.log, reports := t.reports, counters := t.counters }) ∧
      (t.log =
        older.filter (fun x => !decide (x.state = .outstanding)) ++ { e with state := .returning h.tally } :: newer) ∧
      (t.reports = s.reports ++
        if s.port = .active then
          lost.filterMap (fun x =>
            match x.origin, x.silent with
            | .station tag cls, false => some (.completion tag cls x.seq .lost)
            | _, _ => none)
        else []) ∧
      ∀ k : Counter, t.counter k = s.counter k + if k = .lost then BitVec.ofNat 32 lost.length else 0

/-- The return deadline: of the OUTSTANDING entries, oldest first, those whose deadline is reached close LOST up to the first
whose is not; RETURNING entries and the order stay (R91, R93). That none is reported outside ACTIVE is log entry 14's. -/
def Obligations.ReturnExpiryClosesOldest : Prop :=
  ∀ (s : State) (expired rest : List LogEntry), s.resetAsserted = false →
    s.log.filter (fun e => decide (e.state = .outstanding)) = expired ++ rest →
    (∀ e ∈ expired, s.params.returnTimeout ≤ (s.timer - e.insertedAt).toNat) →
    (∀ e, rest.head? = some e → (s.timer - e.insertedAt).toNat < s.params.returnTimeout) →
    ∃ t, exec .returnTimeoutExpiry s = .next t ∧
      (t = { s with log := t.log, reports := t.reports, counters := t.counters }) ∧
      t.log.Sublist s.log ∧ t.log.filter (fun e => decide (e.state = .outstanding)) = rest ∧
      t.log.filter (fun e => !decide (e.state = .outstanding)) =
        s.log.filter (fun e => !decide (e.state = .outstanding)) ∧
      (t.reports = s.reports ++
        if s.port = .active then
          expired.filterMap (fun x =>
            match x.origin, x.silent with
            | .station tag cls, false => some (.completion tag cls x.seq .lost)
            | _, _ => none)
        else []) ∧
      ∀ k : Counter, t.counter k = s.counter k + if k = .lost then BitVec.ofNat 32 expired.length else 0

/-! ### The station port -/

/-- A break begins and ends. In HUNT while ACTIVE, a zero run that reaches 32 begins it, at any bit, whatever bits follow, or on
entering HUNT with 32 or more (`State.breakInHunt`), with all its effects on the station side in one event; the loop side stays
(R95, R111, R116, R129, R155, R174). A flag in BREAK makes the port ACTIVE with the receiver in FILL and causes a PORT STATUS, the first record of the
empty queue (R115, R117, R123). The operand is log entry 8's, the aborts at once log entry 7's, and that the commands bring
nothing where their event cannot occur log entry 2's. -/
def Obligations.BreakBeginsAndEnds : Prop :=
  ∀ s : State, s.resetAsserted = false →
    let broken (t : State) : State :=
      { t with
        port := .break
        ptx := if t.ptx = .idle then .idle else .aborting
        reports := [], statusHeld := false, replies := [], delivery := [], urgent := [], normal := []
        log := t.log.map (fun e => if e.origin = .own then e else { e with silent := true })
        requests := t.requests.filter (fun r => r.isLoop)
        session := t.session.filter (fun x => decide (x.owner ≠ .station))
        discarded := 0, flushed := 0 }
    (∀ bits,
      let zeros := zerosAfter s.srx.zeroRun bits
      let reaches : Prop := ∃ k, 32 ≤ zerosAfter s.srx.zeroRun (bits.take k)
      (s.port = .active → s.srx.state = .hunt → reaches →
        exec (.portBreak bits) s = .next
          (broken { s with srx := { s.srx with run := onesAfter s.srx.run bits, zeroRun := zeros } }).settle) ∧
      (s.port = .break ∨ s.srx.state ≠ .hunt ∨ ¬ reaches → exec (.portBreak bits) s = .next s.settle)) ∧
    (s.breakEffects = broken s) ∧
    (s.breakInHunt = if s.port = .active ∧ s.srx.state = .hunt ∧ 32 ≤ s.srx.zeroRun then broken s else s) ∧
    (∀ n k, zerosAfter n (List.replicate k false) = n + k ∧ onesAfter n (List.replicate k true) = n + k) ∧
    (∀ n k bits, zerosAfter n (bits ++ true :: List.replicate k false) = k ∧
      onesAfter n (bits ++ false :: List.replicate k true) = k) ∧
    (s.port = .break →
      exec .portBreakEnd s = .next { s with port := .active, srx := ⟨.fill, 0, 1, []⟩ }.causeStatus ∧
      (s.reports = [] → s.statusHeld = false →
        exec .portBreakEnd s = .next
          { s with port := .active, srx := ⟨.fill, 0, 1, []⟩, reports := [.portStatus none] })) ∧
    (s.port = .active → exec .portBreakEnd s = .next s)

/-- A cause of PORT STATUS, a REFUSAL and a discard: what each adds to the report queue and the counts (R121 to R123). -/
def Obligations.ReportQueueAdmits : Prop :=
  ∀ s : State,
    let waits : Prop := s.statusHeld = true ∨ .portStatus none ∈ s.reports
    let shared := (s.reports.filter (fun r => !r.isCompletion)).length
    (s.port = .break ∨ waits → s.causeStatus = s) ∧
    (s.port = .active → ¬ waits → shared < 8 →
      s.causeStatus = { s with reports := s.reports ++ [.portStatus none] }) ∧
    (s.port = .active → ¬ waits → 8 ≤ shared → s.causeStatus = { s with statusHeld := true }) ∧
    (∀ tag cls reason, shared + (if s.statusHeld then 1 else 0) < 8 →
      s.refuse tag cls reason =
        { s with reports := s.reports ++
          [.refusal tag cls reason (8 - s.urgent.length) (8 - s.normal.length) (3072 - s.outboundReserved)] }) ∧
    (∀ tag cls reason, 8 ≤ shared + (if s.statusHeld then 1 else 0) → s.refuse tag cls reason = s.discard) ∧
    s.discard = { s.count .portDiscarded with discarded := min (s.discarded + 1) 255 }.causeStatus

/-- A GOOD station frame: the checks of R118 in order, and what a refused frame, a local request and an accepted frame leave
(R68, R73, R114, R115, R118 to R120, R135). -/
def Obligations.StationFrameAcceptance : Prop :=
  ∀ (f : RxFrame) (info : List Byte) (lo hi : Byte) (s : State), s.resetAsserted = false →
    s.srx.state = .frame f info → 11 ≤ f.count → 9 + f.declared.getD 0 + 2 ≤ f.count →
    f.check = [lo, hi] → ~~~ (hi ++ lo : Word16) = f.fcs →
    let port := f.head.getD 0 0
    let tag : Tag := port.extractLsb' 0 7
    let cls : StationClass := if port.getLsbD 7 then .urgent else .normal
    let h := Header.ofOctets 1 f.head
    let s1 : State := { s with srx := ⟨.fill, 0, 1, []⟩ }
    let frame : StationFrame := ⟨tag, cls, h.da, h.sa, h.kind, h.declared, info⟩
    let queue : List StationFrame := if cls = .urgent then s.urgent else s.normal
    let room : Prop := queue.length < 8 ∧ 8 + h.declared ≤ 3072 - s.outboundReserved
    let becomes (t : State) : Prop := exec .stationFrameGood s = .next t.settle
    (∀ p l, f.head = p :: l → h = Header.ofOctets 0 l) ∧
    (s.mode = .repeater → becomes (s1.refuse tag cls .notInService)) ∧
    (s.mode = .service → 512 < h.declared → becomes (s1.refuse tag cls .badHeader)) ∧
    (s.mode = .service → h.declared ≤ 512 → h.da = s.strapped → h.kind = 0x02 →
      (s.requests.length < 4 → becomes { s1 with requests := s.requests ++ [⟨.station tag, info, true⟩] }) ∧
      (4 ≤ s.requests.length → becomes ((s1.count .mgmtDropped).refuse tag cls .queueFull))) ∧
    (s.mode = .service → h.declared ≤ 512 → ¬ (h.da = s.strapped ∧ h.kind = 0x02) →
      (some h.sa ∉ s.identity.toList → becomes (s1.refuse tag cls .badSource)) ∧
      (some h.sa ∈ s.identity.toList → ¬ room → becomes (s1.refuse tag cls .queueFull)) ∧
      (some h.sa ∈ s.identity.toList → room → cls = .urgent → becomes { s1 with urgent := s.urgent ++ [frame] }) ∧
      (some h.sa ∈ s.identity.toList → room → cls = .normal →
        becomes
          { s1 with normal := s.normal ++ [frame], fairness := if s.normal = [] then 0 else s.fairness }))

/-- A station frame that ends in error, at a closing flag, at its excess octet or at the seventh one: it is discarded, and
the receiver fills or hunts, where a long zero run begins a break (R115, R116, R121). The operands and the zero run they bring
are log entry 10's; that an end the frame would not have brings nothing is log entry 2's. -/
def Obligations.StationFrameDiscarded : Prop :=
  ∀ (f : RxFrame) (info : List Byte) (s : State), s.resetAsserted = false → s.srx.state = .frame f info →
    let becomes (how : StationEnd) (t : State) : Prop := exec (.stationFrameDiscard how) s = .next t.settle
    (∀ tail,
      (tail ≠ [] ∨ f.count < 11 ∨ f.count < 9 + f.declared.getD 0 + 2 ∨ f.fcsGood = false →
        becomes (.flag tail) { s with srx := ⟨.fill, 0, 1, []⟩ }.discard) ∧
      (tail = [] → 11 ≤ f.count → 9 + f.declared.getD 0 + 2 ≤ f.count → f.fcsGood = true → becomes (.flag tail) s)) ∧
    (∀ v rest,
      let zeros :=
        zerosAfter s.srx.zeroRun (bitsBringing s.srx.run ((octetBits v).drop s.srx.collector.length ++ rest))
      (9 ≤ f.count → f.count = 9 + f.declared.getD 0 + 2 →
        becomes (.excess v rest) { s with srx := ⟨.hunt, 0, zeros, []⟩ }.discard.breakInHunt) ∧
      (f.count < 9 ∨ f.count ≠ 9 + f.declared.getD 0 + 2 → becomes (.excess v rest) s)) ∧
    becomes .abort { s with srx := ⟨.hunt, 7, 0, []⟩ }.discard

/-- What the station line brings between frame ends: flags and aborts outside a frame, octets in each framing state, at
which the receive buffer keeps the port octet, the header and up to 512 info octets, and in HUNT the zero run may begin a break
(R115, R116). That run is judged at each of the octet's line bits, so a break begins where it reaches 32 though ones follow in
the octet. The operands and the zero run they bring are log entry 10's; an octet at the excess count is log entry 12's; that an
abort in FRAME is another command's and brings nothing here is log entry 2's. -/
def Obligations.StationLineEvents : Prop :=
  ∀ s : State, s.resetAsserted = false →
    (∀ tail, s.port = .active → s.srx.state = .hunt ∨ s.srx.state = .fill →
      exec (.stationFlag tail) s = .next { s with srx := ⟨.fill, 0, 1, []⟩ }) ∧
    (∀ idle, s.srx.state = .hunt ∨ s.srx.state = .fill →
      exec (.stationAbort idle) s = .next { s with srx := ⟨.hunt, if idle then 15 else 7, 0, []⟩ }) ∧
    (∀ idle f info, s.srx.state = .frame f info → exec (.stationAbort idle) s = .next s) ∧
    (∀ run data, bitsBringing run data = if run < 7 then stuff 0 data else false :: stuff 0 data) ∧
    ∀ v rest,
      let bits := bitsBringing s.srx.run ((octetBits v).drop s.srx.collector.length ++ rest)
      let zeros := zerosAfter s.srx.zeroRun bits
      let reaches : Prop := ∃ k, 32 ≤ zerosAfter s.srx.zeroRun (bits.take k)
      let becomes (t : State) : Prop := exec (.stationOctet v rest) s = .next t.settle
      let hunting : State := { s with srx := ⟨.hunt, 0, zeros, []⟩ }
      let framing (f : RxFrame) (info : List Byte) : State := { s with srx := ⟨.frame f info, 0, zeros, rest⟩ }
      (s.srx.state = .hunt →
        (s.port = .active → reaches → becomes hunting.breakEffects) ∧
        (s.port = .break ∨ ¬ reaches → becomes hunting)) ∧
      (s.srx.state = .fill → becomes (framing ⟨1, fcsOctet 0xFFFF#16 v, [v], none, []⟩ [])) ∧
      (∀ f info, s.srx.state = .frame f info →
        (f.count < 8 →
          becomes
            (framing { f with count := f.count + 1, fcs := fcsOctet f.fcs v, head := f.head ++ [v] } info)) ∧
        (f.count = 8 →
          becomes
            (let head := f.head ++ [v]
             framing ⟨9, fcsOctet f.fcs v, head, some ((head.getD 7 0).toNat * 256 + (head.getD 8 0).toNat), f.check⟩ info)) ∧
        (9 ≤ f.count → f.count < 9 + f.declared.getD 0 →
          becomes
            (framing { f with count := f.count + 1, fcs := fcsOctet f.fcs v }
              (if info.length < 512 then info ++ [v] else info))) ∧
        (9 ≤ f.count → 9 + f.declared.getD 0 ≤ f.count → f.count < 9 + f.declared.getD 0 + 2 →
          becomes (framing { f with count := f.count + 1, check := f.check ++ [v] } info)) ∧
        (9 ≤ f.count → f.count = 9 + f.declared.getD 0 + 2 → becomes hunting.discard.breakInHunt))

/-- The station port transmitter's choice: the oldest record, a PORT STATUS taking its contents and both counts; else the
oldest REPLY; else a GOOD delivery head; outside IDLE, or with nothing to send, nothing (R107, R108, R124, R128). And what the
line then carries: each report's port octet and body by 11.2 and 11.5, with the FCS over both; flags in IDLE, the abort while
ABORTING (R109, R127, R190, R191). That outside IDLE the command brings nothing is log entry 2's; that a report is
shown whole on the line from its start is log entry 16's. -/
def Obligations.PortTransmitterChoice : Prop :=
  (∀ s : State, s.resetAsserted = false →
    (s.ptx ≠ .idle → exec .portTxChoice s = .next s) ∧
    (s.ptx = .idle →
      (∀ rest, s.reports = .portStatus none :: rest →
        exec .portTxChoice s = .next
          { s with
            reports :=
              .portStatus (some ⟨s.mode, 8 - s.urgent.length, 8 - s.normal.length, 3072 - s.outboundReserved,
                s.discarded, s.flushed, s.sup.line⟩) :: rest
            discarded := 0, flushed := 0, ptx := .record }) ∧
      (∀ r rest, s.reports = r :: rest → r ≠ .portStatus none →
        exec .portTxChoice s = .next { s with ptx := .record }) ∧
      (s.reports = [] → s.replies ≠ [] → exec .portTxChoice s = .next { s with ptx := .reply }) ∧
      (∀ e es, s.reports = [] → s.replies = [] → s.delivery = e :: es →
        (e.status = .good → e.onPort = false →
          exec .portTxChoice s = .next { s with delivery := { e with onPort := true } :: es, ptx := .delivery }) ∧
        (e.status ≠ .good ∨ e.onPort = true → exec .portTxChoice s = .next s)) ∧
      (s.reports = [] → s.replies = [] → s.delivery = [] → exec .portTxChoice s = .next s))) ∧
  ∀ s : State, s.resetAsserted = false →
    let tagged (tag : Tag) (cls : StationClass) : Byte := oct (tag.toNat + if cls = .urgent then 128 else 0)
    let closed (o : Closing) : List Byte :=
      match o with
      | .returned t => [1, t.octet]
      | .damaged t => [2, t.octet]
      | .lost => [3]
      | .flushed => [4]
    let reason (x : Reason) : Byte :=
      match x with
      | .queueFull => 1
      | .badSource => 2
      | .badHeader => 3
      | .notInService => 4
    let detail (d : Detail) : List Byte :=
      match d with
      | .none => [0, 0, 0, 0, 0]
      | .address a => [1, a.group, a.member, 0, 0]
      | .time t => 2 :: be32 t
      | .label l => [3, l, 0, 0, 0]
      | .station => [4, 0, 0, 0, 0]
      | .powerOn => [5, 0, 0, 0, 0]
    (∀ r rest, s.ptx = .record → s.reports = r :: rest → r ≠ .portStatus none →
      s.portLine = .frame (withFcs
        (match r with
        | .completion tag cls seq o => [0x02, tagged tag cls, seq] ++ closed o
        | .refusal tag cls x urgent normal octets =>
          [0x03, tagged tag cls, reason x, oct urgent, oct normal] ++ be16 octets
        | .portStatus none => []
        | .portStatus (some p) =>
          [0x04, if p.mode = .service then 1 else 2, oct p.freeUrgent, oct p.freeNormal] ++ be16 p.freeOctets ++
            [oct p.discarded, oct p.flushed, if p.line = .up then 1 else 0]
        | .noticeCopy kind occ d => [0x06, oct (noticeCode kind), oct occ] ++ detail d))) ∧
    (∀ r rest, s.ptx = .reply → s.replies = r :: rest →
      s.portLine = .frame (withFcs ([0x05, oct r.tag.toNat] ++ r.body))) ∧
    (∀ e es, s.ptx = .delivery → s.delivery = e :: es →
      s.portLine = .frame (withFcs (0x01 :: (e.header.octets ++ e.info)))) ∧
    (s.ptx = .idle → s.portLine = .flags) ∧ (s.ptx = .aborting → s.portLine = .abort)

/-- A report's closing flag: the report leaves; a shared record's place goes to a held PORT STATUS, a COMPLETION frees a
unit of the budget, a DELIVERY is counted; and the flag after an abort leads to IDLE (R94, R110, R123, R126 to R128). That the
commands bring nothing in the other states of the transmitter is log entry 2's. -/
def Obligations.PortReportLeaves : Prop :=
  ∀ s : State, s.resetAsserted = false →
    (∀ r rest, s.ptx = .record → s.reports = r :: rest →
      let t : State :=
        if r.isCompletion = false ∧ s.statusHeld = true then
          { s with reports := rest ++ [.portStatus none], statusHeld := false, ptx := .idle }
        else { s with reports := rest, ptx := .idle }
      exec .portReportSent s = .next t.settle ∧
      (r.isCompletion = true → s.budget = { s with reports := rest, ptx := .idle }.budget + 1)) ∧
    (∀ r rest, s.ptx = .reply → s.replies = r :: rest →
      exec .portReportSent s = .next ({ s with replies := rest, ptx := .idle } : State).settle) ∧
    (∀ e es, s.ptx = .delivery → s.delivery = e :: es →
      exec .portReportSent s = .next ({ s.count .delivered with delivery := es, ptx := .idle } : State).settle) ∧
    (s.ptx = .idle ∨ s.ptx = .aborting → exec .portReportSent s = .next s.settle) ∧
    (s.ptx = .aborting → exec .portTxAbortComplete s = .next { s with ptx := .idle }) ∧
    (s.ptx ≠ .aborting → exec .portTxAbortComplete s = .next s)

/-! ### Notices -/

/-- A raise, by the state of its kind's slot, and the NOTICE COPY it offers; the kinds' codes, which are their priorities,
and a detail's octets by 11.5 (R122, R176, R178, R179, R190, R191). -/
def Obligations.RaiseActsOnItsSlot : Prop :=
  (∀ (k : NoticeKind) (d : Detail) (s : State),
    let shared := (s.reports.filter (fun r => !r.isCompletion)).length + (if s.statusHeld then 1 else 0)
    (s.slot k = .idle →
      s.raise k d =
        { s with
          slots := s.slots.set (noticeCode k) (.pending 1 d)
          reports :=
            if s.params.noticeToStation = true ∧ s.port = .active ∧ shared < 8 then s.reports ++ [.noticeCopy k 1 d]
            else s.reports }) ∧
    (∀ occ old, s.slot k = .pending occ old →
      s.raise k d = { s with slots := s.slots.set (noticeCode k) (.pending (min (occ + 1) 255) d) }) ∧
    (∀ n, s.slot k = .outstanding n →
      s.raise k d =
        { s with
          slots := s.slots.set (noticeCode k)
            (.outstanding { n with occurrences := min (n.occurrences + 1) 255,
                                   sinceSend := min (n.sinceSend + 1) 255, detail := d }) })) ∧
  [NoticeKind.started, .sessionExpired, .deliveryRefused, .orphan, .transitRefused, .underrun, .lineUp, .lineDown].map
    noticeCode = [0, 1, 2, 3, 4, 5, 6, 7] ∧
  ∀ d : Detail, d.octets =
    match d with
    | .none => [0, 0, 0, 0, 0]
    | .address a => [1, a.group, a.member, 0, 0]
    | .time t => [2, t.extractLsb' 24 8, t.extractLsb' 16 8, t.extractLsb' 8 8, t.extractLsb' 0 8]
    | .label l => [3, l, 0, 0, 0]
    | .station => [4, 0, 0, 0, 0]
    | .powerOn => [5, 0, 0, 0, 0]

/-- The first send, which an event makes after the engine has gone first: the highest PENDING slot, when it is above every
OUTSTANDING one, NOTICE_DEST is set and a place is free, gets its frame, its OUTSTANDING slot and the next sequence; otherwise
every PENDING slot and the sequence counter stay (R66, R180 to R182, R186). A ready head of the engine is carried out before
it, which R182 leaves to the event's order (log entry 5). NOTICE_FIRST_SEND given in a state is that state's end of event (log
entries 2 and 4). -/
def Obligations.FirstSendIsHighest : Prop :=
  ∀ s : State, s.resetAsserted = false →
    (∀ k occ d, s.readyHead = none → s.slot k = .pending occ d →
      (∀ j o x, s.slot j = .pending o x → (noticeCode j).val ≤ (noticeCode k).val) →
      (∀ j n, s.slot j = .outstanding n → (noticeCode j).val < (noticeCode k).val) →
      s.params.noticeDest ≠ ⟨0, 0⟩ → s.own.length < 6 →
      let t : State :=
        { s with
          own := s.own ++
            [⟨⟨s.params.noticeDest, s.strapped, 0x04, ⟨0, false, false⟩, 13⟩,
              [oct (noticeCode k), s.noticeSeq, oct occ, s.epoch] ++ be32 s.timer ++ d.octets⟩]
          slots := s.slots.set (noticeCode k)
            (.outstanding ⟨occ, 0, s.noticeSeq, 1, some (s.timer, s.params.noticeRetry), d⟩)
          noticeSeq := s.noticeSeq + 1 }
      s.settle = t.settle ∧ exec .noticeFirstSend s = .next t.settle) ∧
    (s.readyHead = none →
      s.params.noticeDest = ⟨0, 0⟩ ∨ 6 ≤ s.own.length ∨ (∀ k, (s.slot k).isPending = false) ∨
        (∃ j n, s.slot j = .outstanding n ∧
          ∀ k, (s.slot k).isPending = true → (noticeCode k).val ≤ (noticeCode j).val) →
      s.settle.noticeSeq = s.noticeSeq ∧ ∀ k occ d, s.slot k = .pending occ d → s.settle.slot k = .pending occ d) ∧
    (∀ r, s.readyHead = some r → exec .noticeFirstSend s = .next (s.carryOut r).settle) ∧
    exec .noticeFirstSend s = .next s.settle

/-- A notice's deadline: reached with sends made above NOTICE_RETRIES, the notice is abandoned; otherwise its resend is due and
waits, its deadline absent, for the end of the event. There it is resent under its sequence when NOTICE_DEST is set, a place is
free, no first send and no higher waiting resend goes before it, and no higher resend falls due in the same millisecond;
without a place, or behind those, its slot stays (R182, R183, R187). That it yields to a higher one due in the same
millisecond, and to the engine, is log entry 5's; that a deadline not reached brings nothing, and that NOTICE_RESEND given in a
state is that state's end of event, log entries 2 and 4's. -/
def Obligations.ResendOrAbandon : Prop :=
  ∀ (s : State) (k : NoticeKind) (n : OutNotice), s.resetAsserted = false → s.slot k = .outstanding n →
    let resent : State :=
      { s with
        own := s.own ++
          [⟨⟨s.params.noticeDest, s.strapped, 0x04, ⟨0, false, false⟩, 13⟩,
            [oct (noticeCode k), n.seq, oct n.occurrences, s.epoch] ++ be32 s.timer ++ n.detail.octets⟩]
        slots := s.slots.set (noticeCode k)
          (.outstanding { n with sends := n.sends + 1, sinceSend := 0,
                                 deadline := some (s.timer, s.params.noticeRetry) }) }
    let higherDue : Prop := ∃ j m start interval, (noticeCode k).val < (noticeCode j).val ∧ s.slot j = .outstanding m ∧
      m.deadline = some (start, interval) ∧ interval ≤ (s.timer - start).toNat ∧ m.sends ≤ s.params.noticeRetries
    let higherWaits : Prop := ∃ j, (noticeCode k).val < (noticeCode j).val ∧ (s.slot j).resendWaits = true
    (∀ start interval, n.deadline = some (start, interval) →
      ((s.timer - start).toNat < interval → exec (.noticeRetryDeadline k) s = .next s.settle) ∧
      (interval ≤ (s.timer - start).toNat →
        (s.params.noticeRetries < n.sends →
          exec (.noticeRetryDeadline k) s = .next
            ({ s with slots := s.slots.set (noticeCode k) .idle }.count .noticesAbandoned).settle) ∧
        (n.sends ≤ s.params.noticeRetries →
          exec (.noticeRetryDeadline k) s = .next
            ({ s with slots := s.slots.set (noticeCode k) (.outstanding { n with deadline := none }) } : State).settle))) ∧
    (n.deadline = none → s.readyHead = none →
      (s.params.noticeDest ≠ ⟨0, 0⟩ → s.own.length < 6 → s.sendable = none → ¬ higherWaits → ¬ higherDue →
        s.settle = resent.settle ∧ exec .noticeResend s = .next resent.settle) ∧
      (s.params.noticeDest = ⟨0, 0⟩ ∨ 6 ≤ s.own.length ∨ higherDue ∨
          (s.own.length = 5 ∧ (s.sendable ≠ none ∨ higherWaits)) →
        s.settle.slot k = s.slot k)) ∧
    exec .noticeResend s = .next s.settle

/-! ### Requests -/

/-- Which checks of R138 and R161 refuse a command before its own: too few operand octets, no authority, no session, another's
session. A refused command's reply is all that its carrying out changes. Given without a head that can be carried out,
a row brings nothing, which is log entry 2's. And who has authority (R136, R138, R139, R161). -/
def Obligations.RefusedCommandOnlyReplies : Prop :=
  (∀ row ∈ ([(.paramRead, 0x02, 1), (.paramWrite, 0x03, 3), (.listRead, 0x04, 1), (.listWrite, 0x05, 5),
        (.tableRead, 0x06, 3), (.countersRead, 0x07, 3), (.entryInsert, 0x11, 10), (.entryReplace, 0x12, 10),
        (.entryRemove, 0x13, 1), (.noticeAck, 0x20, 2)] : List (Instr × Byte × Nat)),
    ∀ s r operands, s.Serves r row.2.1 operands → operands.length < row.2.2 →
      exec row.1 s = .next (s.reply r ⟨.badOperand, []⟩).settle) ∧
  (∀ row ∈ ([(.paramWrite, 0x03, 3), (.listWrite, 0x05, 5), (.sessionOpen, 0x10, 0), (.entryInsert, 0x11, 10),
        (.entryReplace, 0x12, 10), (.entryRemove, 0x13, 1), (.sessionCommit, 0x14, 0), (.sessionDiscard, 0x15, 0),
        (.noticeAck, 0x20, 2), (.restart, 0x30, 0)] : List (Instr × Byte × Nat)),
    ∀ s r operands, s.Serves r row.2.1 operands → row.2.2 ≤ operands.length → s.authorized r.source = false →
      exec row.1 s = .next (s.reply r ⟨.notAuthorized, []⟩).settle) ∧
  (∀ row ∈ ([(.entryInsert, 0x11, 10), (.entryReplace, 0x12, 10), (.entryRemove, 0x13, 1), (.sessionCommit, 0x14, 0),
        (.sessionDiscard, 0x15, 0)] : List (Instr × Byte × Nat)),
    ∀ s r operands, s.Serves r row.2.1 operands → row.2.2 ≤ operands.length → s.authorized r.source = true →
      (s.session = none → exec row.1 s = .next (s.reply r ⟨.noSession, []⟩).settle) ∧
      ∀ x, s.session = some x → x.owner ≠ r.source.owner →
        exec row.1 s = .next (s.reply r ⟨.sessionBusy,
          match x.owner with
          | .loop a => [0, a.group, a.member]
          | .station => [1, 0, 0]⟩).settle) ∧
  (∀ c ∈ ([.badCommand, .status, .paramRead, .paramWrite, .listRead, .listWrite, .tableRead, .countersRead,
        .sessionOpen, .entryInsert, .entryReplace, .entryRemove, .sessionCommit, .sessionDiscard, .noticeAck,
        .restart] : List Instr),
    ∀ s : State, s.resetAsserted = false → s.readyHead = none → exec c s = .next s.settle) ∧
  ∀ s : State,
    (∀ sa, s.authorized (.loop sa) = true ↔
      (∀ i : Fin 4, s.managers.get i = none) ∨ ∃ i : Fin 4, s.managers.get i = some sa) ∧
    ∀ tag, s.authorized (.station tag) = s.params.localManage

/-- A request without a command, or with an unknown one, is answered BAD_COMMAND; and how any reply is built, with the
codes of the results, and placed on the link its request came from, the request leaving (R66, R137, R140, R190). -/
def Obligations.BadCommandAndReply : Prop :=
  (∀ (s : State) (r : Request), s.resetAsserted = false → s.readyHead = some r →
    (r.octets.length < 2 ∨ ∃ tag code rest, r.octets = tag :: code :: rest ∧
      code ∉ [0x01, 0x02, 0x03, 0x04, 0x05, 0x06, 0x07, 0x10, 0x11, 0x12, 0x13, 0x14, 0x15, 0x20, 0x30]) →
    exec .badCommand s = .next (s.reply r ⟨.badCommand, []⟩).settle) ∧
  ([Result.done, .notAuthorized, .badCommand, .badOperand, .noSession, .sessionBusy, .duplicate, .tableFull, .noEntry, .inUse,
    .notOutstanding].map Result.octet = [0x00, 0x01, 0x02, 0x03, 0x04, 0x05, 0x06, 0x07, 0x08, 0x09, 0x0A]) ∧
  ∀ (s : State) (r : Request) (a : Answer),
    let body := [r.octets.getD 0 0, r.octets.getD 1 0, a.result.octet, s.epoch] ++ a.data
    (∀ sa, r.source = .loop sa →
      s.reply r a =
        { s with
          own := s.own ++ [⟨⟨sa, s.strapped, 0x03, ⟨0, false, false⟩, 4 + a.data.length⟩, body⟩]
          requests := s.requests.drop 1 }) ∧
    (∀ tag, r.source = .station tag →
      s.reply r a = { s with replies := s.replies ++ [⟨tag, body⟩], requests := s.requests.drop 1 })

/-- STATUS answers the 37 octets of 11.3 as the part stands, and changes nothing else (R45, R66, R82, R99, R133, R141). And what
two of its figures count, here and wherever they are used: reserved outbound octets, of both class queues and of a station
frame being inserted, whose reservation frees at its closing flag (R69, R77); and the completion budget in use, of the STATION
entries that are not silent and the COMPLETION reports not yet sent (R94). -/
def Obligations.StatusReportsThePart : Prop :=
  (∀ s : State,
    let octets (q : List StationFrame) : Nat := (q.map (fun f => 8 + f.declared)).sum
    (s.outboundReserved = octets s.urgent + octets s.normal +
      (match s.ltx with
      | .inserting (.station f) => 8 + f.declared
      | _ => 0)) ∧
    (s.freeOutbound = 3072 - s.outboundReserved) ∧
    (∀ f, s.ltx = .inserting (.station f) → s.resetAsserted = false →
      ∃ t, exec .insertionEnd s = .next t ∧ t.outboundReserved + (8 + f.declared) = s.outboundReserved) ∧
    s.budget = (s.log.filter (fun e => decide (e.origin ≠ .own ∧ e.silent = false))).length +
      (s.reports.filter (fun r =>
        match r with
        | .completion _ _ _ _ => true
        | _ => false)).length) ∧
  ∀ (s : State) (r : Request) (operands : List Byte), s.Serves r 0x01 operands →
    let code : Slot → Byte := fun x => match x with
      | .idle => 0
      | .pending _ _ => 1
      | .outstanding _ => 2
    let data : List Byte :=
      [s.strapped.group, s.strapped.member, if s.mode = .service then 1 else 2, if s.sup.line = .up then 1 else 0,
        if s.port = .active then 1 else 0, if s.session.isSome then 1 else 0] ++
      (match s.session.map (fun x => x.owner) with
        | none => [0, 0, 0]
        | some (.loop a) => [0, a.group, a.member]
        | some .station => [1, 0, 0]) ++
      [oct s.transit.length] ++ be16 (s.transit.map (fun e => e.reservation)).sum ++
      [oct s.delivery.length] ++ be16 (s.delivery.map (fun e => e.reservation)).sum ++
      [oct s.urgent.length, oct s.normal.length] ++ be16 (3072 - s.outboundReserved) ++
      [oct s.own.length, oct s.log.length, oct s.budget, oct s.reports.length, oct s.replies.length,
        oct s.requests.length] ++
      [code (s.slot .started), code (s.slot .sessionExpired), code (s.slot .deliveryRefused), code (s.slot .orphan),
        code (s.slot .transitRefused), code (s.slot .underrun), code (s.slot .lineUp), code (s.slot .lineDown)] ++
      be32 s.timer
    data.length = 37 ∧ exec .status s = .next (s.reply r ⟨.done, data⟩).settle

/-- PARAM READ names one parameter by its code, or ALL: each one's code and value; another code is BAD_OPERAND; nothing else
changes (R143). -/
def Obligations.ParamReadAnswersValues : Prop :=
  ∀ (s : State) (r : Request) (v : Byte) (rest : List Byte), s.Serves r 0x02 (v :: rest) →
    let ps := s.params
    let values : List (Byte × Nat) :=
      [(0, match ps.defaultAction with
          | .pass => 0
          | .copy => 1
          | .drop => 2),
        (1, ps.hopLimit), (2, ps.cutLead), (3, ps.returnTimeout), (4, ps.sessionTimeout),
        (5, ps.noticeDest.group.toNat * 256 + ps.noticeDest.member.toNat), (6, ps.noticeRetry), (7, ps.noticeRetries),
        (8, if ps.noticeToStation then 1 else 0), (9, if ps.localManage then 1 else 0), (10, ps.lineSilence),
        (11, ps.normalFair)]
    (∀ x ∈ values, v = x.1 → exec .paramRead s = .next (s.reply r ⟨.done, x.1 :: be16 x.2⟩).settle) ∧
    (v = 0xFF →
      exec .paramRead s = .next (s.reply r ⟨.done, values.flatMap (fun x => x.1 :: be16 x.2)⟩).settle) ∧
    (11 < v.toNat → v ≠ 0xFF → exec .paramRead s = .next (s.reply r ⟨.badOperand, []⟩).settle)

/-- PARAM WRITE, by the parameter's code: a value in its range becomes the parameter's, no other parameter changes, and what it
causes in the return log, the session and the line supervisor falls in the same event, before the reply; an unknown parameter
or a value out of range is refused (R91, R142, R144, R145, R170). -/
def Obligations.ParamWriteTakesValue : Prop :=
  ∀ (s : State) (r : Request) (code hi lo : Byte) (rest : List Byte), s.Serves r 0x03 (code :: hi :: lo :: rest) →
    s.authorized r.source = true →
    let v := hi.toNat * 256 + lo.toNat
    let ps := s.params
    let within (low high : Nat) (new : Params) : Option Params := if low ≤ v ∧ v ≤ high then some new else none
    let written : Option Params :=
      match code.toNat with
      | 0 =>
        within 0 2 { ps with
          defaultAction := match v with
            | 0 => .pass
            | 1 => .copy
            | _ => .drop }
      | 1 => within 2 63 { ps with hopLimit := v }
      | 2 => within 8 522 { ps with cutLead := v }
      | 3 => within 1 1000 { ps with returnTimeout := v }
      | 4 => within 100 60000 { ps with sessionTimeout := v }
      | 5 => some { ps with noticeDest := ⟨hi, lo⟩ }
      | 6 => within 10 5000 { ps with noticeRetry := v }
      | 7 => within 0 7 { ps with noticeRetries := v }
      | 8 => within 0 1 { ps with noticeToStation := decide (v = 1) }
      | 9 => within 0 1 { ps with localManage := decide (v = 1) }
      | 10 => within 1 1000 { ps with lineSilence := v }
      | 11 => within 1 15 { ps with normalFair := v }
      | _ => none
    (written = none → exec .paramWrite s = .next (s.reply r ⟨.badOperand, []⟩).settle) ∧
    ∀ new, written = some new →
      let s1 : State := { s with params := new }
      let s2 : State :=
        if code = 3 then s1.expireLog
        else if code = 4 then s1.expireSession
        else if code = 10 then s1.silence
        else s1
      exec .paramWrite s = .next (s2.reply r ⟨.done, []⟩).settle

/-- LIST READ answers the four entries of the list named; another list is BAD_OPERAND; nothing else changes (R146, R191,
R192). -/
def Obligations.ListReadAnswersEntries : Prop :=
  ∀ (s : State) (r : Request) (l : Byte) (rest : List Byte), s.Serves r 0x04 (l :: rest) →
    let entry (x : Option Address) : List Byte :=
      match x with
      | none => [0, 0, 0]
      | some a => [1, a.group, a.member]
    let entries (v : Vector (Option Address) 4) : List Byte :=
      entry (v.get 0) ++ entry (v.get 1) ++ entry (v.get 2) ++ entry (v.get 3)
    (l = 0 → exec .listRead s = .next (s.reply r ⟨.done, 0 :: entries s.identity⟩).settle) ∧
    (l = 1 → exec .listRead s = .next (s.reply r ⟨.done, 1 :: entries s.managers⟩).settle) ∧
    (1 < l.toNat → exec .listRead s = .next (s.reply r ⟨.badOperand, []⟩).settle)

/-- LIST WRITE: its checks in order, identity entry 0 fixed, DUPLICATE before IN_USE, and the entry's new value (R96, R146 to
R149, R192). -/
def Obligations.ListWriteChecksAndSets : Prop :=
  ∀ (s : State) (r : Request) (l form g m : Byte) (i : Fin 4) (index : Byte) (rest : List Byte),
    s.Serves r 0x05 (l :: index :: form :: g :: m :: rest) → s.authorized r.source = true →
    let new : Option Address := if form = 0 then none else some ⟨g, m⟩
    let held (v : Vector (Option Address) 4) : Prop := new ≠ none ∧ ∃ j, j ≠ i ∧ v.get j = new
    let used (a : Address) : Prop :=
      (∃ e ∈ s.log, e.sa = a) ∨ (∃ f ∈ s.urgent, f.sa = a) ∨ (∃ f ∈ s.normal, f.sa = a)
    let givesUp : Prop := ∃ a, s.identity.get i = some a ∧ new ≠ some a ∧ used a
    (1 < l.toNat ∨ 3 < index.toNat ∨ 1 < form.toNat →
      exec .listWrite s = .next (s.reply r ⟨.badOperand, []⟩).settle) ∧
    (index.toNat = i.val → form.toNat ≤ 1 →
      (l = 0 →
        (i = 0 → exec .listWrite s = .next (s.reply r ⟨.badOperand, []⟩).settle) ∧
        (i ≠ 0 → held s.identity → exec .listWrite s = .next (s.reply r ⟨.duplicate, []⟩).settle) ∧
        (i ≠ 0 → ¬ held s.identity → givesUp → exec .listWrite s = .next (s.reply r ⟨.inUse, []⟩).settle) ∧
        (i ≠ 0 → ¬ held s.identity → ¬ givesUp →
          exec .listWrite s = .next ({ s with identity := s.identity.set i new }.reply r ⟨.done, []⟩).settle)) ∧
      (l = 1 →
        (held s.managers → exec .listWrite s = .next (s.reply r ⟨.duplicate, []⟩).settle) ∧
        (¬ held s.managers →
          exec .listWrite s = .next ({ s with managers := s.managers.set i new }.reply r ⟨.done, []⟩).settle)))

/-- TABLE READ: its checks in order, and the records of the positions asked for, a staged entry with the count its origin
stands at; nothing else changes (R24, R150, R191). -/
def Obligations.TableReadAnswersEntries : Prop :=
  ∀ (s : State) (r : Request) (t first count : Byte) (rest : List Byte), s.Serves r 0x06 (t :: first :: count :: rest) →
    let asked (n : Nat) : List Nat :=
      (List.range n).filter (fun p => decide (first.toNat ≤ p ∧ p < first.toNat + count.toNat))
    let entry (x : Rule) : List Byte :=
      (match x.key.group with
        | none => [1, 0]
        | some g => [0, g]) ++
      [x.key.low, x.key.high,
        match x.action with
          | .pass => 0
          | .copy => 1
          | .drop => 2,
        match x.policy with
          | .quiet => 0
          | .mark => 1,
        x.label]
    let hits (o : Nat) : Nat := ((s.active[o]?).map (fun e => e.hits)).getD 0
    let bad : Prop := 1 < t.toNat ∨ 48 < first.toNat ∨ count.toNat < 1 ∨ 32 < count.toNat
    (bad → exec .tableRead s = .next (s.reply r ⟨.badOperand, []⟩).settle) ∧
    (¬ bad → t = 0 →
      (s.active.length < first.toNat → exec .tableRead s = .next (s.reply r ⟨.noEntry, []⟩).settle) ∧
      (first.toNat ≤ s.active.length →
        exec .tableRead s = .next (s.reply r
          ⟨.done, [0, oct s.active.length, first] ++
            (asked s.active.length).flatMap (fun p => (s.active[p]?).elim []
              (fun e => oct p :: (entry e.rule ++ be16 e.hits ++ [0xFF])))⟩).settle)) ∧
    (¬ bad → t = 1 → s.session = none → exec .tableRead s = .next (s.reply r ⟨.noSession, []⟩).settle) ∧
    (∀ x, ¬ bad → t = 1 → s.session = some x →
      (x.staged.length < first.toNat → exec .tableRead s = .next (s.reply r ⟨.noEntry, []⟩).settle) ∧
      (first.toNat ≤ x.staged.length →
        exec .tableRead s = .next (s.reply r
          ⟨.done, [1, oct x.staged.length, first] ++
            (asked x.staged.length).flatMap (fun p => (x.staged[p]?).elim []
              (fun e => oct p :: (entry e.rule ++ be16 (e.origin.elim 0 hits) ++ [e.origin.elim 0xFF oct])))⟩).settle))

/-- COUNTERS READ: the counters named with their values, each then set to 0 where the clear flag is set and the requester has
authority, the others unchanged; a range that leaves 0..15 is BAD_OPERAND; a clear without authority reads and clears
nothing; and each counter's number (R151, R152). -/
def Obligations.CountersReadAndClear : Prop :=
  (∀ (s : State) (r : Request) (first count flag : Byte) (rest : List Byte),
    s.Serves r 0x07 (first :: count :: flag :: rest) →
    let clear : Bool := flag.getLsbD 0
    let fits : Prop := first.toNat ≤ 15 ∧ 1 ≤ count.toNat ∧ count.toNat ≤ 16 ∧ first.toNat + count.toNat ≤ 16
    let named (i : Fin 16) : Bool := decide (first.toNat ≤ i.val ∧ i.val < first.toNat + count.toNat)
    let data := ((List.finRange 16).filter named).flatMap (fun i => oct i.val :: be32 (s.counters.get i))
    (clear = true → s.authorized r.source = false →
      exec .countersRead s = .next (s.reply r ⟨.notAuthorized, []⟩).settle) ∧
    (clear = false ∨ s.authorized r.source = true →
      (¬ fits → exec .countersRead s = .next (s.reply r ⟨.badOperand, []⟩).settle) ∧
      (fits → clear = false → exec .countersRead s = .next (s.reply r ⟨.done, data⟩).settle) ∧
      (fits → clear = true → ∃ cleared : Vector Word32 16,
        (∀ i, cleared.get i = if named i then 0 else s.counters.get i) ∧
        exec .countersRead s = .next ({ s with counters := cleared }.reply r ⟨.done, data⟩).settle))) ∧
  [Counter.forwarded, .inserted, .delivered, .stripped, .dropped, .orphaned, .rxBad, .badHeader, .transitRefused, .underrun,
    .deliveryRefused, .lost, .stray, .mgmtDropped, .portDiscarded, .noticesAbandoned].map Counter.number =
      [0, 1, 2, 3, 4, 5, 6, 7, 8, 9, 10, 11, 12, 13, 14, 15]

/-! ### Sessions -/

/-- SESSION OPEN opens a session with a staged copy of the active table, each entry with its position as origin; it keeps
the owner's session and refreshes it; another's is busy. SESSION DISCARD closes the owner's session and changes nothing else
(R158 to R162, R169). -/
def Obligations.SessionOpenAndDiscard : Prop :=
  ∀ (s : State) (r : Request) (operands : List Byte), s.authorized r.source = true →
    let owner : Owner :=
      match r.source with
      | .loop sa => .loop sa
      | .station _ => .station
    let code (o : Owner) : List Byte :=
      match o with
      | .loop a => [0, a.group, a.member]
      | .station => [1, 0, 0]
    (s.Serves r 0x10 operands →
      (s.session = none → ∃ staged : List StagedEntry, staged.length = s.active.length ∧
        (∀ p : Nat, staged[p]? = (s.active[p]?).map (fun e => ⟨e.rule, some p⟩)) ∧
        exec .sessionOpen s = .next
          ({ s with session := some ⟨owner, staged, s.timer⟩ }.reply r ⟨.done, code owner ++ [oct s.active.length]⟩).settle) ∧
      (∀ x, s.session = some x → x.owner = owner →
        exec .sessionOpen s = .next
          ({ s with session := some { x with lastCommand := s.timer } }.reply r
            ⟨.done, code owner ++ [oct x.staged.length]⟩).settle) ∧
      (∀ x, s.session = some x → x.owner ≠ owner →
        exec .sessionOpen s = .next (s.reply r ⟨.sessionBusy, code x.owner⟩).settle)) ∧
    (∀ x, s.Serves r 0x15 operands → s.session = some x → x.owner = owner →
      exec .sessionDiscard s = .next ({ s with session := none }.reply r ⟨.done, []⟩).settle)

/-- ENTRY INSERT by the owner: checks S3 to S6 in order, each refusal still refreshing the deadline, and the new entry at its
position with the later entries moved up (R24, R26, R161, R163, R192). -/
def Obligations.EntryInsertPlacesEntry : Prop :=
  ∀ (s : State) (r : Request) (x : Session) (p form g low high act pol label h1 h2 : Byte) (rest : List Byte),
    s.Serves r 0x11 (p :: form :: g :: low :: high :: act :: pol :: label :: h1 :: h2 :: rest) →
    s.authorized r.source = true → s.session = some x → x.owner = r.source.owner →
    let x1 : Session := { x with lastCommand := s.timer }
    let s1 : State := { s with session := some x1 }
    let code (a : Action) : Byte :=
      match a with
      | .pass => 0
      | .copy => 1
      | .drop => 2
    let bad : Prop := 1 < form.toNat ∨ 2 < act.toNat ∨ 1 < pol.toNat ∨ high.toNat < low.toNat
    (bad → exec .entryInsert s = .next (s1.reply r ⟨.badOperand, []⟩).settle) ∧
    (¬ bad → 48 ≤ x.staged.length → exec .entryInsert s = .next (s1.reply r ⟨.tableFull, []⟩).settle) ∧
    (¬ bad → x.staged.length < 48 → x.staged.length < p.toNat →
      exec .entryInsert s = .next (s1.reply r ⟨.noEntry, []⟩).settle) ∧
    ∀ rule : Rule, form = (if rule.key.group = none then 1 else 0) → (∀ v, rule.key.group = some v → g = v) →
      low = rule.key.low → high = rule.key.high → act = code rule.action → pol = (if rule.policy = .mark then 1 else 0) →
      label = rule.label → low.toNat ≤ high.toNat → x.staged.length < 48 → p.toNat ≤ x.staged.length →
      ((∃ e ∈ x.staged, e.rule.key = rule.key) → exec .entryInsert s = .next (s1.reply r ⟨.duplicate, []⟩).settle) ∧
      ((∀ e ∈ x.staged, e.rule.key ≠ rule.key) →
        exec .entryInsert s = .next
          (({ s with session := some { x1 with
              staged := x.staged.take p.toNat ++ ⟨rule, none⟩ :: x.staged.drop p.toNat } } : State).reply r
            ⟨.done, [oct (x.staged.length + 1)]⟩).settle)

/-- ENTRY REPLACE and ENTRY REMOVE by the owner: their checks in order, the entry written with its origin absent, the entry
dropped with the later entries moved down (R26, R161, R164, R165, R192). -/
def Obligations.EntryReplaceAndRemove : Prop :=
  ∀ (s : State) (r : Request) (x : Session) (p : Byte), s.authorized r.source = true → s.session = some x →
    x.owner = r.source.owner →
    let x1 : Session := { x with lastCommand := s.timer }
    let s1 : State := { s with session := some x1 }
    let code (a : Action) : Byte :=
      match a with
      | .pass => 0
      | .copy => 1
      | .drop => 2
    (∀ (form g low high act pol label h1 h2 : Byte) (rest : List Byte),
      s.Serves r 0x12 (p :: form :: g :: low :: high :: act :: pol :: label :: h1 :: h2 :: rest) →
      let bad : Prop := 1 < form.toNat ∨ 2 < act.toNat ∨ 1 < pol.toNat ∨ high.toNat < low.toNat
      (bad → exec .entryReplace s = .next (s1.reply r ⟨.badOperand, []⟩).settle) ∧
      (¬ bad → x.staged.length ≤ p.toNat → exec .entryReplace s = .next (s1.reply r ⟨.noEntry, []⟩).settle) ∧
      ∀ rule : Rule, form = (if rule.key.group = none then 1 else 0) → (∀ v, rule.key.group = some v → g = v) →
        low = rule.key.low → high = rule.key.high → act = code rule.action → pol = (if rule.policy = .mark then 1 else 0) →
        label = rule.label → low.toNat ≤ high.toNat → p.toNat < x.staged.length →
        ((∃ (i : Nat) (e : StagedEntry), i ≠ p.toNat ∧ x.staged[i]? = some e ∧ e.rule.key = rule.key) →
          exec .entryReplace s = .next (s1.reply r ⟨.duplicate, []⟩).settle) ∧
        ((∀ (i : Nat) (e : StagedEntry), i ≠ p.toNat → x.staged[i]? = some e → e.rule.key ≠ rule.key) →
          exec .entryReplace s = .next
            (({ s with session := some { x1 with
                staged := x.staged.take p.toNat ++ ⟨rule, none⟩ :: x.staged.drop (p.toNat + 1) } } : State).reply r
              ⟨.done, [oct x.staged.length]⟩).settle)) ∧
    (∀ rest : List Byte, s.Serves r 0x13 (p :: rest) →
      (x.staged.length ≤ p.toNat → exec .entryRemove s = .next (s1.reply r ⟨.noEntry, []⟩).settle) ∧
      (p.toNat < x.staged.length →
        exec .entryRemove s = .next
          (({ s with session := some { x1 with
              staged := x.staged.take p.toNat ++ x.staged.drop (p.toNat + 1) } } : State).reply r
            ⟨.done, [oct (x.staged.length - 1)]⟩).settle))

/-- SESSION COMMIT by the owner: the staged entries become the active table, each with its origin's hit count or 0, the epoch
rises by one, the session closes, and the reply carries the new epoch (R140, R158, R166 to R168). -/
def Obligations.CommitInstallsStagedTable : Prop :=
  ∀ (s : State) (r : Request) (x : Session) (operands : List Byte), s.Serves r 0x14 operands →
    s.authorized r.source = true → s.session = some x → x.owner = r.source.owner →
    exec .sessionCommit s = .next
      (({ s with
        active := x.staged.map (fun e =>
          ⟨e.rule, e.origin.elim 0 (fun o => ((s.active[o]?).map (fun a => a.hits)).getD 0)⟩)
        epoch := s.epoch + 1
        session := none } : State).reply r ⟨.done, [oct x.staged.length]⟩).settle

/-- The session deadline: reached, the session closes and SESSION_EXPIRED is raised with the owner (R16, R170,
R176); before it, or with no session, the command brings nothing (log entry 2). -/
def Obligations.SessionExpires : Prop :=
  ∀ s : State, s.resetAsserted = false →
    (s.session = none → exec .sessionTimeoutExpiry s = .next s.settle) ∧
    ∀ x, s.session = some x →
      ((s.timer - x.lastCommand).toNat < s.params.sessionTimeout → exec .sessionTimeoutExpiry s = .next s.settle) ∧
      (s.params.sessionTimeout ≤ (s.timer - x.lastCommand).toNat →
        exec .sessionTimeoutExpiry s = .next
          ({ s with session := none }.raise .sessionExpired
            (match x.owner with
            | .loop a => .address a
            | .station => .station)).settle)

/-- NOTICE ACK: an unknown kind is BAD_OPERAND; a slot that is not OUTSTANDING under the sequence answers NOT_OUTSTANDING
with its present state; the acknowledged slot becomes PENDING with the occurrences since its send, or IDLE (R184). -/
def Obligations.NoticeAckClosesSlot : Prop :=
  ∀ (s : State) (r : Request) (code seq : Byte) (rest : List Byte), s.Serves r 0x20 (code :: seq :: rest) →
    s.authorized r.source = true →
    (7 < code.toNat → exec .noticeAck s = .next (s.reply r ⟨.badOperand, []⟩).settle) ∧
    ∀ k : NoticeKind, code.toNat = (noticeCode k).val →
      (s.slot k = .idle → exec .noticeAck s = .next (s.reply r ⟨.notOutstanding, [code, 0]⟩).settle) ∧
      (∀ occ d, s.slot k = .pending occ d → exec .noticeAck s = .next (s.reply r ⟨.notOutstanding, [code, 1]⟩).settle) ∧
      (∀ n, s.slot k = .outstanding n →
        (n.seq ≠ seq → exec .noticeAck s = .next (s.reply r ⟨.notOutstanding, [code, 2, n.seq]⟩).settle) ∧
        (n.seq = seq → n.sinceSend = 0 →
          exec .noticeAck s = .next
            ({ s with slots := s.slots.set (noticeCode k) .idle }.reply r ⟨.done, [code, 0]⟩).settle) ∧
        (n.seq = seq → 0 < n.sinceSend →
          exec .noticeAck s = .next
            ({ s with slots := s.slots.set (noticeCode k) (.pending n.sinceSend n.detail) }.reply r
              ⟨.done, [code, 1, oct n.sinceSend]⟩).settle))

/-- RESTART: everything in flight is emptied, aborted or flushed in the order of R153, the configuration and the history kept,
STARTED raised, the reply placed, and with NOTICE_DEST set STARTED's frame behind it in the same event (R21, R64, R65, R80,
R97, R112, R130, R153, R154, R173, R188). The aborts at once are log entry 7's, no FLUSHED report outside ACTIVE log entry
14's, the notice unit's turn at the event's end log entry 4's. -/
def Obligations.RestartEmptiesTraffic : Prop :=
  ∀ (s : State) (r : Request) (operands : List Byte), s.Serves r 0x30 operands → s.authorized r.source = true →
    let s1 : State :=
      { s with
        rx := ⟨.hunt, 0, []⟩, verdict := none, transit := []
        ltx := if s.ltx = .idle then .idle else .aborting
        own := [], urgent := [], normal := [], fairness := 0, delivery := []
        ptx := if s.ptx = .delivery then .aborting else s.ptx
        log := []
        reports := s.reports ++
          if s.port = .active then
            s.log.filterMap (fun e =>
              match e.origin, e.silent with
              | .station tag cls, false => some (.completion tag cls e.seq .flushed)
              | _, _ => none)
          else []
        flushed := min (s.flushed + (s.urgent.length + s.normal.length)) 255 }
    let s2 : State :=
      { s1.causeStatus with requests := [r], session := none, slots := Vector.replicate 8 .idle }
    let t : State :=
      ((s2.raise .started
        (match r.source with
        | .loop a => .address a
        | .station _ => .station)).reply r ⟨.done, []⟩).settle
    let replied : List Byte :=
      match r.source with
      | .loop _ => [0x03]
      | .station _ => []
    exec .restart s = .next t ∧ t.requests = [] ∧
    t.own.map (fun f => f.header.kind) = replied ++ (if s.params.noticeDest = ⟨0, 0⟩ then [] else [0x04])

/-! ### The table -/

/-- When a DA matches an entry, and the examples the rule gives: ANY with members 0 to 255 matches every address, 12 with 7 to
7 matches 12.7 alone, and 255.255 matches as any other address does (R25). -/
def Obligations.KeyMatchesAddress : Prop :=
  (∀ (k : Key) (da : Address),
    k.admits da = true ↔
      (k.group = none ∨ k.group = some da.group) ∧ k.low.toNat ≤ da.member.toNat ∧ da.member.toNat ≤ k.high.toNat) ∧
  (∀ da : Address, (⟨none, 0, 255⟩ : Key).admits da = true) ∧
  (∀ da : Address, (⟨some 12, 7, 7⟩ : Key).admits da = true ↔ da = ⟨12, 7⟩) ∧
  ∀ k : Key, k.admits ⟨255, 255⟩ = true ↔ (k.group = none ∨ k.group = some 255) ∧ k.high = 255

/-! ### Rules over every command -/

/-- The forwarding law (R41): whatever the command, an entry of the transit queue after it either stood there before with the
same header, or was made at an eighth octet from a header with hops one fewer, below HOP_LIMIT, whose SA is no identity. -/
def Obligations.ForwardingLaw : Prop :=
  ∀ (c : Instr) (s t : State), IdentityFixed s → exec c s = .next t →
    ∀ e ∈ t.transit,
      (∃ e0 ∈ s.transit, e0.header = e.header ∧ e0.reservation = e.reservation) ∨
      ∃ v rest times f, c = .loopOctet v rest times ∧ s.rx.state = .frame f ∧ f.count = 7 ∧
        let h := Header.ofOctets 0 (f.head ++ [v])
        e.header.da = h.da ∧ e.header.sa = h.sa ∧ e.header.kind = h.kind ∧ e.header.declared = h.declared ∧
        e.header.tally.hops = h.tally.hops + 1 ∧ e.header.tally.hops ≤ s.params.hopLimit ∧
        some h.sa ∉ s.identity.toList

/-- What each kind of configuration and each counter of sequences changes at, over every command. Parameters, lists, table and
epoch change only in an event that carries out a request for it, `asked`: a request in the queue with that command, or the
station frame that becomes one; hit counts also rise at LOOP_OCTET. The return-log sequence moves at ARBITER_CHOICE alone, the
notice sequence by at most one. Counters only rise, but where a COUNTERS READ is asked; a count raises its own by one, which
wraps, and no other (R22, R27, R29, R84, R142, R146, R151, R168, R177). The strapped address, the mode, the timer and the queue
of commands change at none but the reset pin's (R16, R22; log entries 1 and 15). -/
def Obligations.ConfigurationChangesOnlyByItsCommand : Prop :=
  (∀ (c : Instr) (s t : State), exec c s = .next t → (∀ g m, c ≠ .powerOnReset g m) → c ≠ .powerOnResetAssert →
    let asked (k : Command) : Prop :=
      (∃ r ∈ s.requests, r.command = some k) ∨
      (c = .stationFrameGood ∧ ∃ f info, s.srx.state = .frame f info ∧
        (⟨.station 0, info, true⟩ : Request).command = some k)
    t.strapped = s.strapped ∧ t.mode = s.mode ∧ t.timer = s.timer ∧ t.resetAsserted = s.resetAsserted ∧
    t.pending = s.pending ∧
    (¬ asked .paramWrite → t.params = s.params) ∧
    (¬ asked .listWrite → t.identity = s.identity ∧ t.managers = s.managers) ∧
    (¬ asked .sessionCommit →
      t.epoch = s.epoch ∧ t.active.map (fun e => e.rule) = s.active.map (fun e => e.rule) ∧
        ((∀ v rest times, c ≠ .loopOctet v rest times) → t.active = s.active)) ∧
    (c ≠ .arbiterChoice → t.logSeq = s.logSeq) ∧
    (t.noticeSeq = s.noticeSeq ∨ t.noticeSeq = s.noticeSeq + 1) ∧
    (¬ asked .countersRead → ∀ k : Counter, ∃ n ≤ s.log.length + 1, t.counter k = s.counter k + BitVec.ofNat 32 n)) ∧
  ∀ (s : State) (c k : Counter), (s.count c).counter k = s.counter k + if k = c then 1 else 0

/-! ### Invariants -/

/-- Every step keeps the bounds of every store and queue (R45, R66, R68, R69, R99, R126, R133). -/
def Obligations.StepKeepsStoresBounded : Prop :=
  ∀ s t : State, StoresBounded s → step s = .next t → StoresBounded t

/-- Every step keeps the bounds of the return log, the completion budget and the report queue (R82, R84, R94, R122, R123). -/
def Obligations.StepKeepsLogAndReportsBounded : Prop :=
  ∀ s t : State, LogBounded s ∧ ReportsBounded s → step s = .next t → LogBounded t ∧ ReportsBounded t

/-- Every step keeps the active and the staged table sound, so that a commit installs a sound table (R24, R26, R160, R166,
R167). -/
def Obligations.StepKeepsTablesSound : Prop :=
  ∀ s t : State, TablesSound s → step s = .next t → TablesSound t

/-- Every step keeps the mode and the lists as the straps and R146 fix them, and in REPEATER mode everything that mode leaves
empty or unset (R22, R23, R43, R79, R113, R146, R156, R175, R189). -/
def Obligations.StepKeepsModeAndLists : Prop :=
  ∀ s t : State, ListsSound s ∧ RepeaterQuiet s → step s = .next t → ListsSound t ∧ RepeaterQuiet t

/-- Every step keeps what holds while the port is in BREAK, and the zero run in HUNT below 32 while it is ACTIVE (R116, R122,
R129, R155, R174). -/
def Obligations.StepKeepsBreakQuiet : Prop :=
  ∀ s t : State, BreakQuiet s ∧ ZeroRunShort s → step s = .next t → BreakQuiet t ∧ ZeroRunShort t

/-- Every step keeps the part settled: at the end of an event no head request stands ready; a notice that may be sent first
stands only where no place is free; a waiting resend only with NOTICE_DEST unset, without a free place, or behind a higher
OUTSTANDING notice whose deadline runs (R67, R136, R180, R182, R183, R187). That last exemption is the model's: by log entry
5's DESIGN CHOICE a resend yields to a higher one due in the same millisecond whose command has not been given. -/
def Obligations.StepKeepsSettled : Prop :=
  ∀ s t : State, Settled s → step s = .next t → Settled t

/-- Every step keeps every figure in its range (R24, R41, R73, R121, R125, R142, R177, R183). -/
def Obligations.StepKeepsFiguresInRange : Prop :=
  ∀ s t : State, FiguresInRange s → step s = .next t → FiguresInRange t

/-- Every step keeps what the blocks hold of the arriving frame in agreement with the receiver and the verdict: the transit
and delivery entries' figures, one entry being sent, one RETURNING entry, one incomplete request (R7, R30, R46, R51, R58,
R59, R85, R100, R107, R134). -/
def Obligations.StepKeepsFrameSound : Prop :=
  ∀ s t : State, FrameSound s → step s = .next t → FrameSound t

/-- The state after reset satisfies every invariant. That `State.reset` is the part strapped to 12.7, so in SERVICE mode, is the
model's choice, log entry 3's; what holds there of the lists and of REPEATER mode holds by it. -/
def Obligations.ResetSatisfiesInvariants : Prop :=
  StoresBounded State.reset ∧ LogBounded State.reset ∧ ReportsBounded State.reset ∧ TablesSound State.reset ∧
    ListsSound State.reset ∧ RepeaterQuiet State.reset ∧ BreakQuiet State.reset ∧ ZeroRunShort State.reset ∧
    Settled State.reset ∧ FiguresInRange State.reset ∧ FrameSound State.reset
end

