-- ==== Sys2Proof/Laws/State.lean ====
section
/-! SUPPORT. What the plain updates of State leave in each field: one lemma per field per update, true by `rfl`. -/

namespace Sys2Proof.Machine

variable (s : State)

/-! ### countN -/

@[simp] theorem State.countN_resetAsserted (c : Counter) (n : Nat) :
    (s.countN c n).resetAsserted = s.resetAsserted := rfl
@[simp] theorem State.countN_timer (c : Counter) (n : Nat) : (s.countN c n).timer = s.timer := rfl
@[simp] theorem State.countN_strapped (c : Counter) (n : Nat) : (s.countN c n).strapped = s.strapped := rfl
@[simp] theorem State.countN_mode (c : Counter) (n : Nat) : (s.countN c n).mode = s.mode := rfl
@[simp] theorem State.countN_rx (c : Counter) (n : Nat) : (s.countN c n).rx = s.rx := rfl
@[simp] theorem State.countN_sup (c : Counter) (n : Nat) : (s.countN c n).sup = s.sup := rfl
@[simp] theorem State.countN_verdict (c : Counter) (n : Nat) : (s.countN c n).verdict = s.verdict := rfl
@[simp] theorem State.countN_active (c : Counter) (n : Nat) : (s.countN c n).active = s.active := rfl
@[simp] theorem State.countN_epoch (c : Counter) (n : Nat) : (s.countN c n).epoch = s.epoch := rfl
@[simp] theorem State.countN_session (c : Counter) (n : Nat) : (s.countN c n).session = s.session := rfl
@[simp] theorem State.countN_transit (c : Counter) (n : Nat) : (s.countN c n).transit = s.transit := rfl
@[simp] theorem State.countN_ltx (c : Counter) (n : Nat) : (s.countN c n).ltx = s.ltx := rfl
@[simp] theorem State.countN_own (c : Counter) (n : Nat) : (s.countN c n).own = s.own := rfl
@[simp] theorem State.countN_urgent (c : Counter) (n : Nat) : (s.countN c n).urgent = s.urgent := rfl
@[simp] theorem State.countN_normal (c : Counter) (n : Nat) : (s.countN c n).normal = s.normal := rfl
@[simp] theorem State.countN_fairness (c : Counter) (n : Nat) : (s.countN c n).fairness = s.fairness := rfl
@[simp] theorem State.countN_log (c : Counter) (n : Nat) : (s.countN c n).log = s.log := rfl
@[simp] theorem State.countN_logSeq (c : Counter) (n : Nat) : (s.countN c n).logSeq = s.logSeq := rfl
@[simp] theorem State.countN_delivery (c : Counter) (n : Nat) : (s.countN c n).delivery = s.delivery := rfl
@[simp] theorem State.countN_port (c : Counter) (n : Nat) : (s.countN c n).port = s.port := rfl
@[simp] theorem State.countN_srx (c : Counter) (n : Nat) : (s.countN c n).srx = s.srx := rfl
@[simp] theorem State.countN_reports (c : Counter) (n : Nat) : (s.countN c n).reports = s.reports := rfl
@[simp] theorem State.countN_statusHeld (c : Counter) (n : Nat) : (s.countN c n).statusHeld = s.statusHeld := rfl
@[simp] theorem State.countN_replies (c : Counter) (n : Nat) : (s.countN c n).replies = s.replies := rfl
@[simp] theorem State.countN_discarded (c : Counter) (n : Nat) : (s.countN c n).discarded = s.discarded := rfl
@[simp] theorem State.countN_flushed (c : Counter) (n : Nat) : (s.countN c n).flushed = s.flushed := rfl
@[simp] theorem State.countN_ptx (c : Counter) (n : Nat) : (s.countN c n).ptx = s.ptx := rfl
@[simp] theorem State.countN_requests (c : Counter) (n : Nat) : (s.countN c n).requests = s.requests := rfl
@[simp] theorem State.countN_params (c : Counter) (n : Nat) : (s.countN c n).params = s.params := rfl
@[simp] theorem State.countN_identity (c : Counter) (n : Nat) : (s.countN c n).identity = s.identity := rfl
@[simp] theorem State.countN_managers (c : Counter) (n : Nat) : (s.countN c n).managers = s.managers := rfl
@[simp] theorem State.countN_counters (c : Counter) (n : Nat) :
    (s.countN c n).counters = s.counters.set c.number (s.counters.get c.number + BitVec.ofNat 32 n) := rfl
@[simp] theorem State.countN_slots (c : Counter) (n : Nat) : (s.countN c n).slots = s.slots := rfl
@[simp] theorem State.countN_noticeSeq (c : Counter) (n : Nat) : (s.countN c n).noticeSeq = s.noticeSeq := rfl
@[simp] theorem State.countN_pending (c : Counter) (n : Nat) : (s.countN c n).pending = s.pending := rfl

/-! ### count -/

@[simp] theorem State.count_resetAsserted (c : Counter) : (s.count c).resetAsserted = s.resetAsserted := rfl
@[simp] theorem State.count_timer (c : Counter) : (s.count c).timer = s.timer := rfl
@[simp] theorem State.count_strapped (c : Counter) : (s.count c).strapped = s.strapped := rfl
@[simp] theorem State.count_mode (c : Counter) : (s.count c).mode = s.mode := rfl
@[simp] theorem State.count_rx (c : Counter) : (s.count c).rx = s.rx := rfl
@[simp] theorem State.count_sup (c : Counter) : (s.count c).sup = s.sup := rfl
@[simp] theorem State.count_verdict (c : Counter) : (s.count c).verdict = s.verdict := rfl
@[simp] theorem State.count_active (c : Counter) : (s.count c).active = s.active := rfl
@[simp] theorem State.count_epoch (c : Counter) : (s.count c).epoch = s.epoch := rfl
@[simp] theorem State.count_session (c : Counter) : (s.count c).session = s.session := rfl
@[simp] theorem State.count_transit (c : Counter) : (s.count c).transit = s.transit := rfl
@[simp] theorem State.count_ltx (c : Counter) : (s.count c).ltx = s.ltx := rfl
@[simp] theorem State.count_own (c : Counter) : (s.count c).own = s.own := rfl
@[simp] theorem State.count_urgent (c : Counter) : (s.count c).urgent = s.urgent := rfl
@[simp] theorem State.count_normal (c : Counter) : (s.count c).normal = s.normal := rfl
@[simp] theorem State.count_fairness (c : Counter) : (s.count c).fairness = s.fairness := rfl
@[simp] theorem State.count_log (c : Counter) : (s.count c).log = s.log := rfl
@[simp] theorem State.count_logSeq (c : Counter) : (s.count c).logSeq = s.logSeq := rfl
@[simp] theorem State.count_delivery (c : Counter) : (s.count c).delivery = s.delivery := rfl
@[simp] theorem State.count_port (c : Counter) : (s.count c).port = s.port := rfl
@[simp] theorem State.count_srx (c : Counter) : (s.count c).srx = s.srx := rfl
@[simp] theorem State.count_reports (c : Counter) : (s.count c).reports = s.reports := rfl
@[simp] theorem State.count_statusHeld (c : Counter) : (s.count c).statusHeld = s.statusHeld := rfl
@[simp] theorem State.count_replies (c : Counter) : (s.count c).replies = s.replies := rfl
@[simp] theorem State.count_discarded (c : Counter) : (s.count c).discarded = s.discarded := rfl
@[simp] theorem State.count_flushed (c : Counter) : (s.count c).flushed = s.flushed := rfl
@[simp] theorem State.count_ptx (c : Counter) : (s.count c).ptx = s.ptx := rfl
@[simp] theorem State.count_requests (c : Counter) : (s.count c).requests = s.requests := rfl
@[simp] theorem State.count_params (c : Counter) : (s.count c).params = s.params := rfl
@[simp] theorem State.count_identity (c : Counter) : (s.count c).identity = s.identity := rfl
@[simp] theorem State.count_managers (c : Counter) : (s.count c).managers = s.managers := rfl
@[simp] theorem State.count_counters (c : Counter) :
    (s.count c).counters = s.counters.set c.number (s.counters.get c.number + BitVec.ofNat 32 1) := rfl
@[simp] theorem State.count_slots (c : Counter) : (s.count c).slots = s.slots := rfl
@[simp] theorem State.count_noticeSeq (c : Counter) : (s.count c).noticeSeq = s.noticeSeq := rfl
@[simp] theorem State.count_pending (c : Counter) : (s.count c).pending = s.pending := rfl

/-! ### raise -/

@[simp] theorem State.raise_resetAsserted (k : NoticeKind) (d : Detail) :
    (s.raise k d).resetAsserted = s.resetAsserted := rfl
@[simp] theorem State.raise_timer (k : NoticeKind) (d : Detail) : (s.raise k d).timer = s.timer := rfl
@[simp] theorem State.raise_strapped (k : NoticeKind) (d : Detail) : (s.raise k d).strapped = s.strapped := rfl
@[simp] theorem State.raise_mode (k : NoticeKind) (d : Detail) : (s.raise k d).mode = s.mode := rfl
@[simp] theorem State.raise_rx (k : NoticeKind) (d : Detail) : (s.raise k d).rx = s.rx := rfl
@[simp] theorem State.raise_sup (k : NoticeKind) (d : Detail) : (s.raise k d).sup = s.sup := rfl
@[simp] theorem State.raise_verdict (k : NoticeKind) (d : Detail) : (s.raise k d).verdict = s.verdict := rfl
@[simp] theorem State.raise_active (k : NoticeKind) (d : Detail) : (s.raise k d).active = s.active := rfl
@[simp] theorem State.raise_epoch (k : NoticeKind) (d : Detail) : (s.raise k d).epoch = s.epoch := rfl
@[simp] theorem State.raise_session (k : NoticeKind) (d : Detail) : (s.raise k d).session = s.session := rfl
@[simp] theorem State.raise_transit (k : NoticeKind) (d : Detail) : (s.raise k d).transit = s.transit := rfl
@[simp] theorem State.raise_ltx (k : NoticeKind) (d : Detail) : (s.raise k d).ltx = s.ltx := rfl
@[simp] theorem State.raise_own (k : NoticeKind) (d : Detail) : (s.raise k d).own = s.own := rfl
@[simp] theorem State.raise_urgent (k : NoticeKind) (d : Detail) : (s.raise k d).urgent = s.urgent := rfl
@[simp] theorem State.raise_normal (k : NoticeKind) (d : Detail) : (s.raise k d).normal = s.normal := rfl
@[simp] theorem State.raise_fairness (k : NoticeKind) (d : Detail) : (s.raise k d).fairness = s.fairness := rfl
@[simp] theorem State.raise_log (k : NoticeKind) (d : Detail) : (s.raise k d).log = s.log := rfl
@[simp] theorem State.raise_logSeq (k : NoticeKind) (d : Detail) : (s.raise k d).logSeq = s.logSeq := rfl
@[simp] theorem State.raise_delivery (k : NoticeKind) (d : Detail) : (s.raise k d).delivery = s.delivery := rfl
@[simp] theorem State.raise_port (k : NoticeKind) (d : Detail) : (s.raise k d).port = s.port := rfl
@[simp] theorem State.raise_srx (k : NoticeKind) (d : Detail) : (s.raise k d).srx = s.srx := rfl
@[simp] theorem State.raise_reports (k : NoticeKind) (d : Detail) :
    (s.raise k d).reports = s.reports ++ s.copiesOf k d := rfl
@[simp] theorem State.raise_statusHeld (k : NoticeKind) (d : Detail) : (s.raise k d).statusHeld = s.statusHeld := rfl
@[simp] theorem State.raise_replies (k : NoticeKind) (d : Detail) : (s.raise k d).replies = s.replies := rfl
@[simp] theorem State.raise_discarded (k : NoticeKind) (d : Detail) : (s.raise k d).discarded = s.discarded := rfl
@[simp] theorem State.raise_flushed (k : NoticeKind) (d : Detail) : (s.raise k d).flushed = s.flushed := rfl
@[simp] theorem State.raise_ptx (k : NoticeKind) (d : Detail) : (s.raise k d).ptx = s.ptx := rfl
@[simp] theorem State.raise_requests (k : NoticeKind) (d : Detail) : (s.raise k d).requests = s.requests := rfl
@[simp] theorem State.raise_params (k : NoticeKind) (d : Detail) : (s.raise k d).params = s.params := rfl
@[simp] theorem State.raise_identity (k : NoticeKind) (d : Detail) : (s.raise k d).identity = s.identity := rfl
@[simp] theorem State.raise_managers (k : NoticeKind) (d : Detail) : (s.raise k d).managers = s.managers := rfl
@[simp] theorem State.raise_counters (k : NoticeKind) (d : Detail) : (s.raise k d).counters = s.counters := rfl
@[simp] theorem State.raise_slots (k : NoticeKind) (d : Detail) :
    (s.raise k d).slots = s.slots.set (noticeCode k) ((s.slot k).raise d) := rfl
@[simp] theorem State.raise_noticeSeq (k : NoticeKind) (d : Detail) : (s.raise k d).noticeSeq = s.noticeSeq := rfl
@[simp] theorem State.raise_pending (k : NoticeKind) (d : Detail) : (s.raise k d).pending = s.pending := rfl

/-! ### placeCompletions -/

@[simp] theorem State.placeCompletions_resetAsserted (o : Closing) (es : List LogEntry) :
    (s.placeCompletions o es).resetAsserted = s.resetAsserted := rfl
@[simp] theorem State.placeCompletions_timer (o : Closing) (es : List LogEntry) :
    (s.placeCompletions o es).timer = s.timer := rfl
@[simp] theorem State.placeCompletions_strapped (o : Closing) (es : List LogEntry) :
    (s.placeCompletions o es).strapped = s.strapped := rfl
@[simp] theorem State.placeCompletions_mode (o : Closing) (es : List LogEntry) :
    (s.placeCompletions o es).mode = s.mode := rfl
@[simp] theorem State.placeCompletions_rx (o : Closing) (es : List LogEntry) :
    (s.placeCompletions o es).rx = s.rx := rfl
@[simp] theorem State.placeCompletions_sup (o : Closing) (es : List LogEntry) :
    (s.placeCompletions o es).sup = s.sup := rfl
@[simp] theorem State.placeCompletions_verdict (o : Closing) (es : List LogEntry) :
    (s.placeCompletions o es).verdict = s.verdict := rfl
@[simp] theorem State.placeCompletions_active (o : Closing) (es : List LogEntry) :
    (s.placeCompletions o es).active = s.active := rfl
@[simp] theorem State.placeCompletions_epoch (o : Closing) (es : List LogEntry) :
    (s.placeCompletions o es).epoch = s.epoch := rfl
@[simp] theorem State.placeCompletions_session (o : Closing) (es : List LogEntry) :
    (s.placeCompletions o es).session = s.session := rfl
@[simp] theorem State.placeCompletions_transit (o : Closing) (es : List LogEntry) :
    (s.placeCompletions o es).transit = s.transit := rfl
@[simp] theorem State.placeCompletions_ltx (o : Closing) (es : List LogEntry) :
    (s.placeCompletions o es).ltx = s.ltx := rfl
@[simp] theorem State.placeCompletions_own (o : Closing) (es : List LogEntry) :
    (s.placeCompletions o es).own = s.own := rfl
@[simp] theorem State.placeCompletions_urgent (o : Closing) (es : List LogEntry) :
    (s.placeCompletions o es).urgent = s.urgent := rfl
@[simp] theorem State.placeCompletions_normal (o : Closing) (es : List LogEntry) :
    (s.placeCompletions o es).normal = s.normal := rfl
@[simp] theorem State.placeCompletions_fairness (o : Closing) (es : List LogEntry) :
    (s.placeCompletions o es).fairness = s.fairness := rfl
@[simp] theorem State.placeCompletions_log (o : Closing) (es : List LogEntry) :
    (s.placeCompletions o es).log = s.log := rfl
@[simp] theorem State.placeCompletions_logSeq (o : Closing) (es : List LogEntry) :
    (s.placeCompletions o es).logSeq = s.logSeq := rfl
@[simp] theorem State.placeCompletions_delivery (o : Closing) (es : List LogEntry) :
    (s.placeCompletions o es).delivery = s.delivery := rfl
@[simp] theorem State.placeCompletions_port (o : Closing) (es : List LogEntry) :
    (s.placeCompletions o es).port = s.port := rfl
@[simp] theorem State.placeCompletions_srx (o : Closing) (es : List LogEntry) :
    (s.placeCompletions o es).srx = s.srx := rfl
@[simp] theorem State.placeCompletions_reports (o : Closing) (es : List LogEntry) :
    (s.placeCompletions o es).reports = s.reports ++ s.completionsOf o es := rfl
@[simp] theorem State.placeCompletions_statusHeld (o : Closing) (es : List LogEntry) :
    (s.placeCompletions o es).statusHeld = s.statusHeld := rfl
@[simp] theorem State.placeCompletions_replies (o : Closing) (es : List LogEntry) :
    (s.placeCompletions o es).replies = s.replies := rfl
@[simp] theorem State.placeCompletions_discarded (o : Closing) (es : List LogEntry) :
    (s.placeCompletions o es).discarded = s.discarded := rfl
@[simp] theorem State.placeCompletions_flushed (o : Closing) (es : List LogEntry) :
    (s.placeCompletions o es).flushed = s.flushed := rfl
@[simp] theorem State.placeCompletions_ptx (o : Closing) (es : List LogEntry) :
    (s.placeCompletions o es).ptx = s.ptx := rfl
@[simp] theorem State.placeCompletions_requests (o : Closing) (es : List LogEntry) :
    (s.placeCompletions o es).requests = s.requests := rfl
@[simp] theorem State.placeCompletions_params (o : Closing) (es : List LogEntry) :
    (s.placeCompletions o es).params = s.params := rfl
@[simp] theorem State.placeCompletions_identity (o : Closing) (es : List LogEntry) :
    (s.placeCompletions o es).identity = s.identity := rfl
@[simp] theorem State.placeCompletions_managers (o : Closing) (es : List LogEntry) :
    (s.placeCompletions o es).managers = s.managers := rfl
@[simp] theorem State.placeCompletions_counters (o : Closing) (es : List LogEntry) :
    (s.placeCompletions o es).counters = s.counters := rfl
@[simp] theorem State.placeCompletions_slots (o : Closing) (es : List LogEntry) :
    (s.placeCompletions o es).slots = s.slots := rfl
@[simp] theorem State.placeCompletions_noticeSeq (o : Closing) (es : List LogEntry) :
    (s.placeCompletions o es).noticeSeq = s.noticeSeq := rfl
@[simp] theorem State.placeCompletions_pending (o : Closing) (es : List LogEntry) :
    (s.placeCompletions o es).pending = s.pending := rfl

/-! ### appendLog -/

@[simp] theorem State.appendLog_resetAsserted (o : Origin) (h : Header) :
    (s.appendLog o h).resetAsserted = s.resetAsserted := rfl
@[simp] theorem State.appendLog_timer (o : Origin) (h : Header) : (s.appendLog o h).timer = s.timer := rfl
@[simp] theorem State.appendLog_strapped (o : Origin) (h : Header) : (s.appendLog o h).strapped = s.strapped := rfl
@[simp] theorem State.appendLog_mode (o : Origin) (h : Header) : (s.appendLog o h).mode = s.mode := rfl
@[simp] theorem State.appendLog_rx (o : Origin) (h : Header) : (s.appendLog o h).rx = s.rx := rfl
@[simp] theorem State.appendLog_sup (o : Origin) (h : Header) : (s.appendLog o h).sup = s.sup := rfl
@[simp] theorem State.appendLog_verdict (o : Origin) (h : Header) : (s.appendLog o h).verdict = s.verdict := rfl
@[simp] theorem State.appendLog_active (o : Origin) (h : Header) : (s.appendLog o h).active = s.active := rfl
@[simp] theorem State.appendLog_epoch (o : Origin) (h : Header) : (s.appendLog o h).epoch = s.epoch := rfl
@[simp] theorem State.appendLog_session (o : Origin) (h : Header) : (s.appendLog o h).session = s.session := rfl
@[simp] theorem State.appendLog_transit (o : Origin) (h : Header) : (s.appendLog o h).transit = s.transit := rfl
@[simp] theorem State.appendLog_ltx (o : Origin) (h : Header) : (s.appendLog o h).ltx = s.ltx := rfl
@[simp] theorem State.appendLog_own (o : Origin) (h : Header) : (s.appendLog o h).own = s.own := rfl
@[simp] theorem State.appendLog_urgent (o : Origin) (h : Header) : (s.appendLog o h).urgent = s.urgent := rfl
@[simp] theorem State.appendLog_normal (o : Origin) (h : Header) : (s.appendLog o h).normal = s.normal := rfl
@[simp] theorem State.appendLog_fairness (o : Origin) (h : Header) : (s.appendLog o h).fairness = s.fairness := rfl
@[simp] theorem State.appendLog_log (o : Origin) (h : Header) : (s.appendLog o h).log = s.log ++ [s.newEntry o h] := rfl
@[simp] theorem State.appendLog_logSeq (o : Origin) (h : Header) :
    (s.appendLog o h).logSeq = nextSeq s.logSeq s.log + 1 := rfl
@[simp] theorem State.appendLog_delivery (o : Origin) (h : Header) : (s.appendLog o h).delivery = s.delivery := rfl
@[simp] theorem State.appendLog_port (o : Origin) (h : Header) : (s.appendLog o h).port = s.port := rfl
@[simp] theorem State.appendLog_srx (o : Origin) (h : Header) : (s.appendLog o h).srx = s.srx := rfl
@[simp] theorem State.appendLog_reports (o : Origin) (h : Header) : (s.appendLog o h).reports = s.reports := rfl
@[simp] theorem State.appendLog_statusHeld (o : Origin) (h : Header) :
    (s.appendLog o h).statusHeld = s.statusHeld := rfl
@[simp] theorem State.appendLog_replies (o : Origin) (h : Header) : (s.appendLog o h).replies = s.replies := rfl
@[simp] theorem State.appendLog_discarded (o : Origin) (h : Header) : (s.appendLog o h).discarded = s.discarded := rfl
@[simp] theorem State.appendLog_flushed (o : Origin) (h : Header) : (s.appendLog o h).flushed = s.flushed := rfl
@[simp] theorem State.appendLog_ptx (o : Origin) (h : Header) : (s.appendLog o h).ptx = s.ptx := rfl
@[simp] theorem State.appendLog_requests (o : Origin) (h : Header) : (s.appendLog o h).requests = s.requests := rfl
@[simp] theorem State.appendLog_params (o : Origin) (h : Header) : (s.appendLog o h).params = s.params := rfl
@[simp] theorem State.appendLog_identity (o : Origin) (h : Header) : (s.appendLog o h).identity = s.identity := rfl
@[simp] theorem State.appendLog_managers (o : Origin) (h : Header) : (s.appendLog o h).managers = s.managers := rfl
@[simp] theorem State.appendLog_counters (o : Origin) (h : Header) : (s.appendLog o h).counters = s.counters := rfl
@[simp] theorem State.appendLog_slots (o : Origin) (h : Header) : (s.appendLog o h).slots = s.slots := rfl
@[simp] theorem State.appendLog_noticeSeq (o : Origin) (h : Header) : (s.appendLog o h).noticeSeq = s.noticeSeq := rfl
@[simp] theorem State.appendLog_pending (o : Origin) (h : Header) : (s.appendLog o h).pending = s.pending := rfl

/-! ### placeNotice -/

@[simp] theorem State.placeNotice_resetAsserted (k : NoticeKind) (seq : Byte) (occ : Nat) (d : Detail) :
    (s.placeNotice k seq occ d).resetAsserted = s.resetAsserted := rfl
@[simp] theorem State.placeNotice_timer (k : NoticeKind) (seq : Byte) (occ : Nat) (d : Detail) :
    (s.placeNotice k seq occ d).timer = s.timer := rfl
@[simp] theorem State.placeNotice_strapped (k : NoticeKind) (seq : Byte) (occ : Nat) (d : Detail) :
    (s.placeNotice k seq occ d).strapped = s.strapped := rfl
@[simp] theorem State.placeNotice_mode (k : NoticeKind) (seq : Byte) (occ : Nat) (d : Detail) :
    (s.placeNotice k seq occ d).mode = s.mode := rfl
@[simp] theorem State.placeNotice_rx (k : NoticeKind) (seq : Byte) (occ : Nat) (d : Detail) :
    (s.placeNotice k seq occ d).rx = s.rx := rfl
@[simp] theorem State.placeNotice_sup (k : NoticeKind) (seq : Byte) (occ : Nat) (d : Detail) :
    (s.placeNotice k seq occ d).sup = s.sup := rfl
@[simp] theorem State.placeNotice_verdict (k : NoticeKind) (seq : Byte) (occ : Nat) (d : Detail) :
    (s.placeNotice k seq occ d).verdict = s.verdict := rfl
@[simp] theorem State.placeNotice_active (k : NoticeKind) (seq : Byte) (occ : Nat) (d : Detail) :
    (s.placeNotice k seq occ d).active = s.active := rfl
@[simp] theorem State.placeNotice_epoch (k : NoticeKind) (seq : Byte) (occ : Nat) (d : Detail) :
    (s.placeNotice k seq occ d).epoch = s.epoch := rfl
@[simp] theorem State.placeNotice_session (k : NoticeKind) (seq : Byte) (occ : Nat) (d : Detail) :
    (s.placeNotice k seq occ d).session = s.session := rfl
@[simp] theorem State.placeNotice_transit (k : NoticeKind) (seq : Byte) (occ : Nat) (d : Detail) :
    (s.placeNotice k seq occ d).transit = s.transit := rfl
@[simp] theorem State.placeNotice_ltx (k : NoticeKind) (seq : Byte) (occ : Nat) (d : Detail) :
    (s.placeNotice k seq occ d).ltx = s.ltx := rfl
@[simp] theorem State.placeNotice_own (k : NoticeKind) (seq : Byte) (occ : Nat) (d : Detail) :
    (s.placeNotice k seq occ d).own = s.own ++ [s.ownFrame s.params.noticeDest kindNotice (s.noticeBody k seq occ d)] := rfl
@[simp] theorem State.placeNotice_urgent (k : NoticeKind) (seq : Byte) (occ : Nat) (d : Detail) :
    (s.placeNotice k seq occ d).urgent = s.urgent := rfl
@[simp] theorem State.placeNotice_normal (k : NoticeKind) (seq : Byte) (occ : Nat) (d : Detail) :
    (s.placeNotice k seq occ d).normal = s.normal := rfl
@[simp] theorem State.placeNotice_fairness (k : NoticeKind) (seq : Byte) (occ : Nat) (d : Detail) :
    (s.placeNotice k seq occ d).fairness = s.fairness := rfl
@[simp] theorem State.placeNotice_log (k : NoticeKind) (seq : Byte) (occ : Nat) (d : Detail) :
    (s.placeNotice k seq occ d).log = s.log := rfl
@[simp] theorem State.placeNotice_logSeq (k : NoticeKind) (seq : Byte) (occ : Nat) (d : Detail) :
    (s.placeNotice k seq occ d).logSeq = s.logSeq := rfl
@[simp] theorem State.placeNotice_delivery (k : NoticeKind) (seq : Byte) (occ : Nat) (d : Detail) :
    (s.placeNotice k seq occ d).delivery = s.delivery := rfl
@[simp] theorem State.placeNotice_port (k : NoticeKind) (seq : Byte) (occ : Nat) (d : Detail) :
    (s.placeNotice k seq occ d).port = s.port := rfl
@[simp] theorem State.placeNotice_srx (k : NoticeKind) (seq : Byte) (occ : Nat) (d : Detail) :
    (s.placeNotice k seq occ d).srx = s.srx := rfl
@[simp] theorem State.placeNotice_reports (k : NoticeKind) (seq : Byte) (occ : Nat) (d : Detail) :
    (s.placeNotice k seq occ d).reports = s.reports := rfl
@[simp] theorem State.placeNotice_statusHeld (k : NoticeKind) (seq : Byte) (occ : Nat) (d : Detail) :
    (s.placeNotice k seq occ d).statusHeld = s.statusHeld := rfl
@[simp] theorem State.placeNotice_replies (k : NoticeKind) (seq : Byte) (occ : Nat) (d : Detail) :
    (s.placeNotice k seq occ d).replies = s.replies := rfl
@[simp] theorem State.placeNotice_discarded (k : NoticeKind) (seq : Byte) (occ : Nat) (d : Detail) :
    (s.placeNotice k seq occ d).discarded = s.discarded := rfl
@[simp] theorem State.placeNotice_flushed (k : NoticeKind) (seq : Byte) (occ : Nat) (d : Detail) :
    (s.placeNotice k seq occ d).flushed = s.flushed := rfl
@[simp] theorem State.placeNotice_ptx (k : NoticeKind) (seq : Byte) (occ : Nat) (d : Detail) :
    (s.placeNotice k seq occ d).ptx = s.ptx := rfl
@[simp] theorem State.placeNotice_requests (k : NoticeKind) (seq : Byte) (occ : Nat) (d : Detail) :
    (s.placeNotice k seq occ d).requests = s.requests := rfl
@[simp] theorem State.placeNotice_params (k : NoticeKind) (seq : Byte) (occ : Nat) (d : Detail) :
    (s.placeNotice k seq occ d).params = s.params := rfl
@[simp] theorem State.placeNotice_identity (k : NoticeKind) (seq : Byte) (occ : Nat) (d : Detail) :
    (s.placeNotice k seq occ d).identity = s.identity := rfl
@[simp] theorem State.placeNotice_managers (k : NoticeKind) (seq : Byte) (occ : Nat) (d : Detail) :
    (s.placeNotice k seq occ d).managers = s.managers := rfl
@[simp] theorem State.placeNotice_counters (k : NoticeKind) (seq : Byte) (occ : Nat) (d : Detail) :
    (s.placeNotice k seq occ d).counters = s.counters := rfl
@[simp] theorem State.placeNotice_slots (k : NoticeKind) (seq : Byte) (occ : Nat) (d : Detail) :
    (s.placeNotice k seq occ d).slots = s.slots := rfl
@[simp] theorem State.placeNotice_noticeSeq (k : NoticeKind) (seq : Byte) (occ : Nat) (d : Detail) :
    (s.placeNotice k seq occ d).noticeSeq = s.noticeSeq := rfl
@[simp] theorem State.placeNotice_pending (k : NoticeKind) (seq : Byte) (occ : Nat) (d : Detail) :
    (s.placeNotice k seq occ d).pending = s.pending := rfl

/-! ### setSlot -/

@[simp] theorem State.setSlot_resetAsserted (k : NoticeKind) (x : Slot) :
    (s.setSlot k x).resetAsserted = s.resetAsserted := rfl
@[simp] theorem State.setSlot_timer (k : NoticeKind) (x : Slot) : (s.setSlot k x).timer = s.timer := rfl
@[simp] theorem State.setSlot_strapped (k : NoticeKind) (x : Slot) : (s.setSlot k x).strapped = s.strapped := rfl
@[simp] theorem State.setSlot_mode (k : NoticeKind) (x : Slot) : (s.setSlot k x).mode = s.mode := rfl
@[simp] theorem State.setSlot_rx (k : NoticeKind) (x : Slot) : (s.setSlot k x).rx = s.rx := rfl
@[simp] theorem State.setSlot_sup (k : NoticeKind) (x : Slot) : (s.setSlot k x).sup = s.sup := rfl
@[simp] theorem State.setSlot_verdict (k : NoticeKind) (x : Slot) : (s.setSlot k x).verdict = s.verdict := rfl
@[simp] theorem State.setSlot_active (k : NoticeKind) (x : Slot) : (s.setSlot k x).active = s.active := rfl
@[simp] theorem State.setSlot_epoch (k : NoticeKind) (x : Slot) : (s.setSlot k x).epoch = s.epoch := rfl
@[simp] theorem State.setSlot_session (k : NoticeKind) (x : Slot) : (s.setSlot k x).session = s.session := rfl
@[simp] theorem State.setSlot_transit (k : NoticeKind) (x : Slot) : (s.setSlot k x).transit = s.transit := rfl
@[simp] theorem State.setSlot_ltx (k : NoticeKind) (x : Slot) : (s.setSlot k x).ltx = s.ltx := rfl
@[simp] theorem State.setSlot_own (k : NoticeKind) (x : Slot) : (s.setSlot k x).own = s.own := rfl
@[simp] theorem State.setSlot_urgent (k : NoticeKind) (x : Slot) : (s.setSlot k x).urgent = s.urgent := rfl
@[simp] theorem State.setSlot_normal (k : NoticeKind) (x : Slot) : (s.setSlot k x).normal = s.normal := rfl
@[simp] theorem State.setSlot_fairness (k : NoticeKind) (x : Slot) : (s.setSlot k x).fairness = s.fairness := rfl
@[simp] theorem State.setSlot_log (k : NoticeKind) (x : Slot) : (s.setSlot k x).log = s.log := rfl
@[simp] theorem State.setSlot_logSeq (k : NoticeKind) (x : Slot) : (s.setSlot k x).logSeq = s.logSeq := rfl
@[simp] theorem State.setSlot_delivery (k : NoticeKind) (x : Slot) : (s.setSlot k x).delivery = s.delivery := rfl
@[simp] theorem State.setSlot_port (k : NoticeKind) (x : Slot) : (s.setSlot k x).port = s.port := rfl
@[simp] theorem State.setSlot_srx (k : NoticeKind) (x : Slot) : (s.setSlot k x).srx = s.srx := rfl
@[simp] theorem State.setSlot_reports (k : NoticeKind) (x : Slot) : (s.setSlot k x).reports = s.reports := rfl
@[simp] theorem State.setSlot_statusHeld (k : NoticeKind) (x : Slot) : (s.setSlot k x).statusHeld = s.statusHeld := rfl
@[simp] theorem State.setSlot_replies (k : NoticeKind) (x : Slot) : (s.setSlot k x).replies = s.replies := rfl
@[simp] theorem State.setSlot_discarded (k : NoticeKind) (x : Slot) : (s.setSlot k x).discarded = s.discarded := rfl
@[simp] theorem State.setSlot_flushed (k : NoticeKind) (x : Slot) : (s.setSlot k x).flushed = s.flushed := rfl
@[simp] theorem State.setSlot_ptx (k : NoticeKind) (x : Slot) : (s.setSlot k x).ptx = s.ptx := rfl
@[simp] theorem State.setSlot_requests (k : NoticeKind) (x : Slot) : (s.setSlot k x).requests = s.requests := rfl
@[simp] theorem State.setSlot_params (k : NoticeKind) (x : Slot) : (s.setSlot k x).params = s.params := rfl
@[simp] theorem State.setSlot_identity (k : NoticeKind) (x : Slot) : (s.setSlot k x).identity = s.identity := rfl
@[simp] theorem State.setSlot_managers (k : NoticeKind) (x : Slot) : (s.setSlot k x).managers = s.managers := rfl
@[simp] theorem State.setSlot_counters (k : NoticeKind) (x : Slot) : (s.setSlot k x).counters = s.counters := rfl
@[simp] theorem State.setSlot_slots (k : NoticeKind) (x : Slot) :
    (s.setSlot k x).slots = s.slots.set (noticeCode k) x := rfl
@[simp] theorem State.setSlot_noticeSeq (k : NoticeKind) (x : Slot) : (s.setSlot k x).noticeSeq = s.noticeSeq := rfl
@[simp] theorem State.setSlot_pending (k : NoticeKind) (x : Slot) : (s.setSlot k x).pending = s.pending := rfl

end Sys2Proof.Machine
end

