-- ==== Sys2Proof/Laws/Frames.lean ====
section
/-! SUPPORT. What each shared operation may touch, said once: the state it answers is the old one with these fields changed,
and no other. The existential form composes: take the fields apart, rewrite, and the next operation's lemma applies. -/

namespace Sys2Proof.Machine

/-! ### Reports and counts -/

theorem State.causeStatus_frame (s : State) :
    ∃ reports held, s.causeStatus = { s with reports := reports, statusHeld := held } := by
  unfold State.causeStatus; split
  · split <;> exact ⟨_, _, rfl⟩
  · exact ⟨_, _, rfl⟩

theorem State.discard_frame (s : State) :
    ∃ counters discarded reports held, s.discard =
      { s with counters := counters, discarded := discarded, reports := reports, statusHeld := held } := by
  obtain ⟨r, h, e⟩ := State.causeStatus_frame { s.count .portDiscarded with discarded := saturate (s.discarded + 1) }
  exact ⟨_, _, r, h, e⟩

theorem State.refuse_frame (s : State) (tag : Tag) (cls : StationClass) (reason : Reason) :
    ∃ counters discarded reports held, s.refuse tag cls reason =
      { s with counters := counters, discarded := discarded, reports := reports, statusHeld := held } := by
  unfold State.refuse; split
  · exact ⟨_, _, _, _, rfl⟩
  · exact s.discard_frame

theorem State.raise_frame (s : State) (k : NoticeKind) (d : Detail) :
    ∃ slots reports, s.raise k d = { s with slots := slots, reports := reports } := ⟨_, _, rfl⟩

theorem State.closeLost_frame (s : State) (es : List LogEntry) :
    ∃ counters reports, s.closeLost es = { s with counters := counters, reports := reports } := ⟨_, _, rfl⟩

/-! ### The return log -/

theorem State.stripHeader_frame (s : State) (h : Header) :
    ∃ log counters reports, s.stripHeader h = { s with log := log, counters := counters, reports := reports } := by
  unfold State.stripHeader; split <;> exact ⟨_, _, _, rfl⟩

theorem State.endReturning_frame (s : State) (good : Bool) :
    ∃ log counters reports, s.endReturning good = { s with log := log, counters := counters, reports := reports } := by
  unfold State.endReturning; split <;> exact ⟨_, _, _, rfl⟩

theorem State.expireLog_frame (s : State) :
    ∃ log counters reports, s.expireLog = { s with log := log, counters := counters, reports := reports } :=
  ⟨_, _, _, rfl⟩

theorem State.flushLog_frame (s : State) : ∃ reports, s.flushLog = { s with log := [], reports := reports } := ⟨_, rfl⟩

/-! ### Transit and delivery -/

theorem State.reserveTransit_frame (s : State) (h : Header) (marks : Option Mark) :
    ∃ transit counters slots reports, s.reserveTransit h marks =
      { s with transit := transit, counters := counters, slots := slots, reports := reports } := by
  unfold State.reserveTransit; split <;> exact ⟨_, _, _, _, rfl⟩

theorem State.transitOctet_frame (s : State) (v : Byte) :
    ∃ transit, s.transitOctet v = { s with transit := transit } := ⟨_, rfl⟩

theorem State.endTransit_frame (s : State) (good : Bool) :
    ∃ transit ltx, s.endTransit good = { s with transit := transit, ltx := ltx } := by
  unfold State.endTransit; split
  · exact ⟨_, _, rfl⟩
  · split <;> exact ⟨_, _, rfl⟩

theorem State.octetTime_frame (s : State) : ∃ transit, s.octetTime = { s with transit := transit } := by
  unfold State.octetTime
  split <;> exact ⟨_, rfl⟩

theorem State.octetTimes_frame (n : Nat) (s : State) : ∃ transit, s.octetTimes n = { s with transit := transit } := by
  induction n generalizing s with
  | zero => exact ⟨_, rfl⟩
  | succ n ih =>
    obtain ⟨t1, h1⟩ := s.octetTime_frame
    obtain ⟨t2, h2⟩ := ih s.octetTime
    exact ⟨t2, by rw [State.octetTimes, h2, h1]⟩

/-- Outside FORWARDING no octet goes (R56). -/
theorem State.octetTimes_of_not_forwarding {s : State} (h : s.ltx ≠ .forwarding) (n : Nat) : s.octetTimes n = s := by
  have once : s.octetTime = s := by
    unfold State.octetTime
    split
    · exact absurd (by assumption) h
    · rfl
  induction n with
  | zero => rfl
  | succ n ih => rw [State.octetTimes, once, ih]

/-- In FORWARDING as many octets go as there are octet times, up to those released (R46, R56). -/
theorem State.octetTimes_forwarding {s : State} {e : TransitEntry} {es : List TransitEntry} (h : s.ltx = .forwarding)
    (ht : s.transit = e :: es) (n : Nat) :
    s.octetTimes n =
      { s with
        transit := (if e.sending = .yes then { e with sent := e.sent + min n (e.released - e.sent) } else e) :: es } := by
  induction n generalizing s e with
  | zero =>
    have same : (if e.sending = .yes then { e with sent := e.sent + min 0 (e.released - e.sent) } else e) = e := by
      split <;> simp
    rw [same, ← ht]
    rfl
  | succ n ih =>
    have once : s.octetTime = { s with transit := e.sendOctet :: es } := by
      unfold State.octetTime
      rw [h, ht]
    rw [State.octetTimes, ih (s := s.octetTime) (e := e.sendOctet) (by rw [once]; exact h) (by rw [once]), once]
    unfold TransitEntry.sendOctet
    by_cases hs : e.sending = .yes <;> by_cases hr : e.sent < e.released <;> simp [hs, hr]
    · omega
    · have : e.released - e.sent = 0 := by omega
      simp [this]

theorem State.underrun_frame (s : State) :
    ∃ transit ltx counters slots reports, s.underrun =
      { s with transit := transit, ltx := ltx, counters := counters, slots := slots, reports := reports } := by
  unfold State.underrun; split
  · exact ⟨_, _, _, _, _, rfl⟩
  · split <;> exact ⟨_, _, _, _, _, rfl⟩

theorem State.completeForward_frame (s : State) :
    ∃ transit ltx counters, s.completeForward = { s with transit := transit, ltx := ltx, counters := counters } := by
  unfold State.completeForward; split
  · exact ⟨_, _, _, rfl⟩
  · split <;> exact ⟨_, _, _, rfl⟩

theorem State.reserveDelivery_frame (s : State) (h : Header) (label : Option Byte) :
    ∃ delivery counters slots reports, (s.reserveDelivery h label).2 =
      { s with delivery := delivery, counters := counters, slots := slots, reports := reports } := by
  unfold State.reserveDelivery; split <;> exact ⟨_, _, _, _, rfl⟩

theorem State.endDelivery_frame (s : State) (good : Bool) :
    ∃ delivery, s.endDelivery good = { s with delivery := delivery } := by
  unfold State.endDelivery; split
  · exact ⟨_, rfl⟩
  · split <;> exact ⟨_, rfl⟩

/-! ### The classifier -/

theorem State.hitMatched_frame (s : State) (f : Finding) :
    ∃ active, s.hitMatched f = { s with active := active } ∧
      active.map (fun e => e.rule) = s.active.map (fun e => e.rule) := by
  unfold State.hitMatched; split
  · refine ⟨_, rfl, ?_⟩
    apply List.ext_getElem?
    intro i
    simp only [List.getElem?_map, List.getElem?_modify]
    split <;> cases s.active[i]? <;> rfl
  · exact ⟨_, rfl, rfl⟩

theorem State.offerRequest_frame (s : State) (sa : Address) :
    ∃ requests counters, (s.offerRequest sa).2 = { s with requests := requests, counters := counters } := by
  unfold State.offerRequest; split <;> exact ⟨_, _, rfl⟩

theorem State.endRequest_frame (s : State) (good : Bool) :
    ∃ requests, s.endRequest good = { s with requests := requests } := by
  unfold State.endRequest; split <;> exact ⟨_, rfl⟩

theorem State.infoOctet_frame (s : State) (v : Byte) :
    ∃ transit delivery requests, s.infoOctet v =
      { s with transit := transit, delivery := delivery, requests := requests } := by
  unfold State.infoOctet; split
  · exact ⟨_, _, _, rfl⟩
  · dsimp only
    split <;> split <;> split <;> exact ⟨_, _, _, rfl⟩

theorem State.endBlocks_frame (s : State) (good : Bool) :
    ∃ transit ltx delivery requests log counters reports, s.endBlocks good =
      { s with transit := transit, ltx := ltx, delivery := delivery, requests := requests, log := log,
               counters := counters, reports := reports } := by
  unfold State.endBlocks; split
  · exact ⟨_, _, _, _, _, _, _, rfl⟩
  · rename_i r _
    have h1 : ∃ tr ltx, (if r.forward then s.endTransit good else s) = { s with transit := tr, ltx := ltx } := by
      split
      · exact s.endTransit_frame good
      · exact ⟨_, _, rfl⟩
    obtain ⟨tr, ltx, h1⟩ := h1
    simp only [h1]
    have h2 : ∀ s : State, ∃ d, (if r.keepsCopy then s.endDelivery good else s) = { s with delivery := d } := by
      intro s; split
      · exact s.endDelivery_frame good
      · exact ⟨_, rfl⟩
    obtain ⟨d, h2⟩ := h2 { s with transit := tr, ltx := ltx }
    simp only [h2]
    have h3 : ∀ s : State, ∃ q, (if r.keepsRequest then s.endRequest good else s) = { s with requests := q } := by
      intro s; split
      · exact s.endRequest_frame good
      · exact ⟨_, rfl⟩
    obtain ⟨q, h3⟩ := h3 { s with transit := tr, ltx := ltx, delivery := d }
    simp only [h3]
    split
    · obtain ⟨l, c, rp, h4⟩ :=
        State.endReturning_frame { s with transit := tr, ltx := ltx, delivery := d, requests := q } good
      exact ⟨tr, ltx, d, q, l, c, rp, h4⟩
    · exact ⟨tr, ltx, d, q, _, _, _, rfl⟩

/-- The frame end touches the blocks' queues, the return log with its reports, the counters, and the flag marker. -/
theorem State.frameEnd_frame (s : State) (c : EndCond) :
    ∃ transit ltx delivery requests log counters reports, s.frameEnd c =
      { s with verdict := none, transit := transit, ltx := ltx, delivery := delivery, requests := requests, log := log,
               counters := counters, reports := reports, sup := { s.sup with marker := s.sup.marker && c.isGood } } := by
  obtain ⟨tr, ltx, d, q, l, ct, rp, h⟩ := s.endBlocks_frame c.isGood
  unfold State.frameEnd
  simp only [h]
  cases c.isGood
  · exact ⟨tr, ltx, d, q, l, _, rp, by simp; rfl⟩
  · exact ⟨tr, ltx, d, q, l, ct, rp, by simp⟩

/-! ### A frame's end reads nothing of the receiver: it commutes with a change of `rx` -/

theorem State.endTransit_rx (s : State) (x : LoopRx) (good : Bool) :
    ({ s with rx := x } : State).endTransit good = { s.endTransit good with rx := x } := by
  unfold State.endTransit
  simp only [State.arrivingTransit]
  split
  · rfl
  · split <;> rfl

theorem State.endDelivery_rx (s : State) (x : LoopRx) (good : Bool) :
    ({ s with rx := x } : State).endDelivery good = { s.endDelivery good with rx := x } := by
  unfold State.endDelivery
  simp only [State.arrivingDelivery]
  split
  · rfl
  · split <;> rfl

theorem State.endRequest_rx (s : State) (x : LoopRx) (good : Bool) :
    ({ s with rx := x } : State).endRequest good = { s.endRequest good with rx := x } := by
  cases good <;> rfl

theorem State.endReturning_rx (s : State) (x : LoopRx) (good : Bool) :
    ({ s with rx := x } : State).endReturning good = { s.endReturning good with rx := x } := by
  unfold State.endReturning
  simp only
  split <;> rfl

theorem State.endBlocks_rx (s : State) (x : LoopRx) (good : Bool) :
    ({ s with rx := x } : State).endBlocks good = { s.endBlocks good with rx := x } := by
  unfold State.endBlocks
  simp only
  split
  · rfl
  · rename_i r _
    cases r.forward <;> cases r.keepsCopy <;> cases r.keepsRequest <;> by_cases hv : r.verdict = .strip <;>
      simp only [hv, Bool.false_eq_true, if_true, if_false, State.endTransit_rx, State.endDelivery_rx, State.endRequest_rx,
        State.endReturning_rx]

theorem State.frameEnd_rx (s : State) (x : LoopRx) (c : EndCond) :
    ({ s with rx := x } : State).frameEnd c = { s.frameEnd c with rx := x } := by
  unfold State.frameEnd
  rw [State.endBlocks_rx]
  split <;> rfl

/-- What the eighth octet of a frame may touch. -/
theorem State.judgeHeader_frame (s : State) (h : Header) (f : Finding) :
    ∃ verdict active transit delivery requests log counters slots reports, s.judgeHeader h f =
      { s with verdict := some verdict, active := active, transit := transit, delivery := delivery,
               requests := requests, log := log, counters := counters, slots := slots, reports := reports } ∧
      active.map (fun e => e.rule) = s.active.map (fun e => e.rule) := by
  unfold State.judgeHeader
  dsimp only
  split
  · exact ⟨_, _, _, _, _, _, _, _, _, rfl, rfl⟩
  · obtain ⟨l, c, r, h1⟩ := s.stripHeader_frame h
    rw [h1]; exact ⟨_, _, _, _, _, _, _, _, _, rfl, rfl⟩
  · exact ⟨_, _, _, _, _, _, _, _, _, rfl, rfl⟩
  · obtain ⟨q, c, h1⟩ := s.offerRequest_frame h.sa
    rw [h1]
    obtain ⟨tr, c2, sl, r, h2⟩ :=
      State.reserveTransit_frame { s with requests := q, counters := c } h (some (s.offerRequest h.sa).1.mark)
    rw [h2]; exact ⟨_, _, _, _, _, _, _, _, _, rfl, rfl⟩
  · obtain ⟨a, h1, ha⟩ := s.hitMatched_frame f
    rw [h1]
    obtain ⟨tr, c2, sl, r, h2⟩ := State.reserveTransit_frame { s with active := a } h none
    rw [h2]; exact ⟨_, _, _, _, _, _, _, _, _, rfl, ha⟩
  · obtain ⟨a, h1, ha⟩ := s.hitMatched_frame f
    rw [h1]
    generalize VerdictRecord.copied _ _ = v
    obtain ⟨d, c, sl, r, h2⟩ :=
      State.reserveDelivery_frame { s with active := a } h ((s.matched f).map (fun x => x.rule.label))
    rw [h2]
    obtain ⟨tr, c2, sl2, r2, h3⟩ :=
      State.reserveTransit_frame { s with active := a, delivery := d, counters := c, slots := sl, reports := r } h v.marks
    rw [h3]; exact ⟨_, _, _, _, _, _, _, _, _, rfl, ha⟩
  · obtain ⟨a, h1, ha⟩ := s.hitMatched_frame f
    rw [h1]; exact ⟨_, _, _, _, _, _, _, _, _, rfl, ha⟩

/-! ### Insertion and the station port -/

theorem State.causeIfWasFull_frame (s : State) (n : Nat) :
    ∃ reports held, s.causeIfWasFull n = { s with reports := reports, statusHeld := held } := by
  unfold State.causeIfWasFull; split
  · exact s.causeStatus_frame
  · exact ⟨_, _, rfl⟩

theorem State.accept_frame (s : State) (m : StationSubmission) :
    ∃ urgent normal fairness requests counters discarded reports held, s.accept m =
      { s with urgent := urgent, normal := normal, fairness := fairness, requests := requests, counters := counters,
               discarded := discarded, reports := reports, statusHeld := held } := by
  have hr : ∀ (s : State) (reason : Reason),
      ∃ urgent normal fairness requests counters discarded reports held, s.refuse m.tag m.cls reason =
      { s with urgent := urgent, normal := normal, fairness := fairness, requests := requests, counters := counters,
               discarded := discarded, reports := reports, statusHeld := held } := by
    intro s reason
    obtain ⟨c, d, r, h, e⟩ := s.refuse_frame m.tag m.cls reason
    rw [e]; exact ⟨_, _, _, _, _, _, _, _, rfl⟩
  unfold State.accept
  split
  · exact hr s _
  split
  · exact hr s _
  split
  · unfold State.offerLocal; split
    · exact ⟨_, _, _, _, _, _, _, _, rfl⟩
    · obtain ⟨c, d, r, h, e⟩ := (s.count .mgmtDropped).refuse_frame m.tag m.cls .queueFull
      rw [e]; exact ⟨_, _, _, _, _, _, _, _, rfl⟩
  split
  · exact hr s _
  split
  · exact hr s _
  · unfold State.enqueue; split <;> exact ⟨_, _, _, _, _, _, _, _, rfl⟩

theorem State.portChoice_frame (s : State) :
    ∃ reports discarded flushed delivery ptx, s.portChoice =
      { s with reports := reports, discarded := discarded, flushed := flushed, delivery := delivery, ptx := ptx } := by
  unfold State.portChoice; split
  · split
    · unfold State.beginRecord; split <;> exact ⟨_, _, _, _, _, rfl⟩
    all_goals exact ⟨_, _, _, _, _, rfl⟩
  · exact ⟨_, _, _, _, _, rfl⟩

theorem State.reportSent_frame (s : State) :
    ∃ reports held replies delivery counters ptx, s.reportSent =
      { s with reports := reports, statusHeld := held, replies := replies, delivery := delivery, counters := counters,
               ptx := ptx } := by
  unfold State.reportSent; split
  · unfold State.recordSent; split
    · exact ⟨_, _, _, _, _, _, rfl⟩
    · split <;> exact ⟨_, _, _, _, _, _, rfl⟩
  all_goals exact ⟨_, _, _, _, _, _, rfl⟩

/-! ### Requests -/

theorem State.reply_frame (s : State) (r : Request) (a : Answer) :
    ∃ own replies, s.reply r a = { s with own := own, replies := replies, requests := s.requests.tail } := by
  unfold State.reply; split <;> exact ⟨_, _, rfl⟩

/-- What carrying out a request can come to: nothing, or the run of the ready head, then its reply. -/
theorem State.serve_cases (s : State) (c : Option Command) (run : Request → State → State × Answer) :
    s.serve c run = s ∨ ∃ r, s.readyHead = some r ∧ r.command = c ∧ s.serve c run = (run r s).1.reply r (run r s).2 := by
  unfold State.serve; split
  · rename_i r h
    split
    · rename_i hw; exact .inr ⟨r, h, hw, rfl⟩
    · exact .inl rfl
  · exact .inl rfl

/-- A ready head is the head of the queue, complete, and its reply path has a place (R136). -/
theorem State.readyHead_some {s : State} {r : Request} (h : s.readyHead = some r) :
    ∃ rest, s.requests = r :: rest ∧ r.complete = true ∧ s.replyPlace r = true := by
  unfold State.readyHead at h; split at h
  · simp at h
  · rename_i x rest hs
    split at h
    · rename_i hc
      obtain rfl := Option.some.inj h
      simp only [Bool.and_eq_true] at hc
      exact ⟨rest, hs, hc.1, hc.2⟩
    · simp at h

/-- A command that is not the reset pin's, on a running part, answers its effect. -/
theorem State.running_of_released {s : State} (f : State → State) (h : s.resetAsserted = false) :
    s.running f = .next (f s) := by simp [State.running, h]

/-- Under an asserted reset it answers the state as it stands (log entry 9). -/
theorem State.running_of_asserted {s : State} (f : State → State) (h : s.resetAsserted = true) :
    s.running f = .next s := by simp [State.running, h]

/-- What a next state of a running command is. -/
theorem State.running_next {s t : State} {f : State → State} (h : s.running f = .next t) :
    (s.resetAsserted = true ∧ t = s) ∨ (s.resetAsserted = false ∧ t = f s) := by
  unfold State.running at h
  cases hr : s.resetAsserted <;> simp_all

/-! ### Notices -/

theorem State.setSlot_slot (s : State) (k : NoticeKind) (x : Slot) : (s.setSlot k x).slot k = x := by
  show (s.slots.set (noticeCode k) x)[(noticeCode k).val] = x
  simp

theorem State.firstSend_frame (s : State) (k : NoticeKind) :
    ∃ own slots noticeSeq, s.firstSend k = { s with own := own, slots := slots, noticeSeq := noticeSeq } := by
  unfold State.firstSend; split <;> exact ⟨_, _, _, rfl⟩

theorem State.resend_frame (s : State) (k : NoticeKind) (n : OutNotice) :
    ∃ own slots, s.resend k n = { s with own := own, slots := slots } := ⟨_, _, rfl⟩

theorem State.retryDeadline_frame (s : State) (k : NoticeKind) :
    ∃ slots counters, s.retryDeadline k = { s with slots := slots, counters := counters } := by
  unfold State.retryDeadline; split
  · split
    · split
      · split <;> exact ⟨_, _, rfl⟩
      · exact ⟨_, _, rfl⟩
    · exact ⟨_, _, rfl⟩
  · exact ⟨_, _, rfl⟩

theorem State.sendFirst_frame (s : State) :
    ∃ own slots noticeSeq, s.sendFirst = { s with own := own, slots := slots, noticeSeq := noticeSeq } := by
  unfold State.sendFirst; split
  · split
    · exact s.firstSend_frame _
    · exact ⟨_, _, _, rfl⟩
  · exact ⟨_, _, _, rfl⟩

theorem State.resendOf_frame (s : State) (k : NoticeKind) :
    ∃ own slots, s.resendOf k = { s with own := own, slots := slots } := by
  unfold State.resendOf; split
  · split <;> exact ⟨_, _, rfl⟩
  · exact ⟨_, _, rfl⟩

theorem State.resendWaiting_frame (s : State) :
    ∃ own slots, s.resendWaiting = { s with own := own, slots := slots } := by
  have h : ∀ (l : List NoticeKind) (s : State), ∃ own slots,
      l.foldl State.resendOf s = { s with own := own, slots := slots } := by
    intro l
    induction l with
    | nil => exact fun s => ⟨_, _, rfl⟩
    | cons k l ih =>
      intro s
      obtain ⟨o, sl, e⟩ := s.resendOf_frame k
      obtain ⟨o', sl', e'⟩ := ih (s.resendOf k)
      exact ⟨o', sl', by rw [List.foldl_cons, e', e]⟩
  exact h _ s

/-- The notice unit's turn touches the own output queue, the slots and the notice sequence. -/
theorem State.placeNotices_frame (s : State) :
    ∃ own slots noticeSeq, s.placeNotices = { s with own := own, slots := slots, noticeSeq := noticeSeq } := by
  obtain ⟨o, sl, n, e⟩ := s.sendFirst_frame
  obtain ⟨o', sl', e'⟩ := s.sendFirst.resendWaiting_frame
  exact ⟨o', sl', n, by rw [State.placeNotices, e', e]⟩

/-! ### Sessions -/

theorem State.expireSession_frame (s : State) :
    ∃ session slots reports, s.expireSession = { s with session := session, slots := slots, reports := reports } := by
  unfold State.expireSession; split
  · exact ⟨_, _, _, rfl⟩
  · split <;> exact ⟨_, _, _, rfl⟩

/-! ### The end of an event -/

/-- The frame end adds no request (R134). -/
theorem State.frameEnd_requests (s : State) (c : EndCond) : (s.frameEnd c).requests.length ≤ s.requests.length := by
  have transit : ∀ (s : State) (g : Bool), (s.endTransit g).requests = s.requests := by
    intro s g; obtain ⟨_, _, e⟩ := s.endTransit_frame g; rw [e]
  have delivery : ∀ (s : State) (g : Bool), (s.endDelivery g).requests = s.requests := by
    intro s g; obtain ⟨_, e⟩ := s.endDelivery_frame g; rw [e]
  have returning : ∀ (s : State) (g : Bool), (s.endReturning g).requests = s.requests := by
    intro s g; obtain ⟨_, _, _, e⟩ := s.endReturning_frame g; rw [e]
  have request : ∀ (s : State) (g : Bool), (s.endRequest g).requests.length ≤ s.requests.length := by
    intro s g; unfold State.endRequest; split
    · simp
    · exact List.length_filter_le _ _
  have blocks : ∀ g, (s.endBlocks g).requests.length ≤ s.requests.length := by
    intro g
    unfold State.endBlocks; split
    · exact Nat.le_refl _
    · rename_i r _
      have h1 : ∀ s : State, (if r.forward then s.endTransit g else s).requests = s.requests := by
        intro s; split <;> simp only [transit]
      have h2 : ∀ s : State, (if r.keepsCopy then s.endDelivery g else s).requests = s.requests := by
        intro s; split <;> simp only [delivery]
      have h3 : ∀ s : State, (if r.keepsRequest then s.endRequest g else s).requests.length ≤ s.requests.length := by
        intro s; split
        · exact request s g
        · exact Nat.le_refl _
      have h4 : ∀ s : State, (if r.verdict = .strip then s.endReturning g else s).requests = s.requests := by
        intro s; split <;> simp only [returning]
      dsimp only
      rw [h4]
      refine Nat.le_trans (h3 _) ?_
      rw [h2, h1]
  unfold State.frameEnd
  dsimp only
  split <;> exact blocks _

/-- What a parameter's write causes adds no request. -/
theorem State.afterWrite_requests (s : State) (p : Param) : (s.afterWrite p).requests.length ≤ s.requests.length := by
  unfold State.afterWrite; split
  · obtain ⟨_, _, _, e⟩ := s.expireLog_frame; rw [e]
  · obtain ⟨_, _, _, e⟩ := s.expireSession_frame; rw [e]
  · unfold State.silence; split
    · unfold State.lineDown State.abortFrame
      dsimp only
      split
      · exact Nat.le_trans (State.frameEnd_requests _ _) (Nat.le_refl _)
      · exact Nat.le_refl _
    · exact Nat.le_refl _
  · exact Nat.le_refl _

/-- A command's run adds no request; RESTART leaves its own alone (R154). -/
theorem State.runOf_requests (c : Option Command) (r : Request) (s : State) :
    (State.runOf c r s).1.requests.length ≤ max 1 s.requests.length := by
  have deny : ∀ x, (s.deny x).1.requests = s.requests := fun _ => rfl
  have authorized : ∀ (x : State × Answer), x.1.requests.length ≤ max 1 s.requests.length →
      (s.ifAuthorized r.source x).1.requests.length ≤ max 1 s.requests.length := by
    intro x h; unfold State.ifAuthorized; split
    · exact h
    · exact Nat.le_max_right _ _
  have asOwner : ∀ run : Session → State → State × Answer, (∀ x t, (run x t).1.requests = t.requests) →
      (s.asOwner r.source run).1.requests.length ≤ max 1 s.requests.length := by
    intro run h; unfold State.asOwner
    apply authorized
    split
    · exact Nat.le_max_right _ _
    · split
      · rw [h]; exact Nat.le_max_right _ _
      · exact Nat.le_max_right _ _
  have le : s.requests.length ≤ max 1 s.requests.length := Nat.le_max_right _ _
  have restarted : (s.restart r).requests = [r] := rfl
  cases c with
  | none => exact le
  | some c =>
    cases c <;> simp only [State.runOf]
    · exact le
    · unfold State.runParamRead; split
      · split <;> exact le
      · exact le
    · unfold State.runParamWrite; split
      · apply authorized
        unfold State.writeParam; split
        · exact le
        · split
          · exact le
          · exact Nat.le_trans (State.afterWrite_requests _ _) le
      · exact le
    · unfold State.runListRead; split
      · split <;> exact le
      · exact le
    · unfold State.runListWrite; split
      · apply authorized
        split
        · unfold State.writeList; split
          · split
            · exact le
            · split
              · exact le
              · split <;> exact le
          · split <;> exact le
        · exact le
      · exact le
    · unfold State.runTableRead; split
      · split
        · split <;> exact le
        · exact le
      · exact le
    · have read : ∀ a b c, (s.readCounters a b c).1.requests.length ≤ max 1 s.requests.length := by
        intro a b c; unfold State.readCounters; split
        · cases c <;> exact le
        · exact le
      unfold State.runCountersRead; split
      · split
        · exact authorized _ (read _ _ _)
        · exact read _ _ _
      · exact le
    · unfold State.runSessionOpen
      apply authorized
      split
      · exact le
      · split <;> exact le
    · unfold State.runEntryInsert; split
      · apply asOwner; intro x t; unfold State.insertEntry
        split
        · rfl
        · split
          · rfl
          · split
            · rfl
            · split <;> rfl
      · exact le
    · unfold State.runEntryReplace; split
      · apply asOwner; intro x t; unfold State.replaceEntry
        split
        · rfl
        · split
          · rfl
          · split <;> rfl
      · exact le
    · unfold State.runEntryRemove; split
      · apply asOwner; intro x t; unfold State.removeEntry
        split <;> rfl
      · exact le
    · exact asOwner _ (fun _ _ => rfl)
    · exact asOwner _ (fun _ _ => rfl)
    · unfold State.runNoticeAck; split
      · apply authorized
        split
        · unfold State.ackNotice; split
          · split <;> exact le
          · exact le
        · exact le
      · exact le
    · unfold State.runRestart
      exact authorized _ (by rw [restarted]; exact Nat.le_max_left _ _)

/-- Carrying out a request takes it from the queue; RESTART takes the rest with it (R140, R154). -/
theorem State.carryOut_requests (s : State) (r : Request) : (s.carryOut r).requests.length ≤ s.requests.length - 1 := by
  obtain ⟨_, _, e⟩ := State.reply_frame (State.runOf r.command r s).1 r (State.runOf r.command r s).2
  have h := State.runOf_requests r.command r s
  unfold State.carryOut State.carry
  rw [e]
  simp only [List.length_tail]
  omega

/-- The chain needs no more turns than there are requests. -/
theorem State.carryOutUpTo_eq {n m : Nat} {s : State} (hn : s.requests.length ≤ n) (hm : s.requests.length ≤ m) :
    State.carryOutUpTo n s = State.carryOutUpTo m s := by
  have none_of_nil : ∀ {s : State}, s.requests.length = 0 → s.readyHead = none := by
    intro s h
    unfold State.readyHead
    rw [List.length_eq_zero_iff.1 h]
  induction n generalizing m s with
  | zero =>
    have h := none_of_nil (Nat.le_zero.1 hn)
    cases m <;> simp [State.carryOutUpTo, h]
  | succ n ih =>
    cases m with
    | zero => simp [State.carryOutUpTo, none_of_nil (Nat.le_zero.1 hm)]
    | succ m =>
      simp only [State.carryOutUpTo]
      split
      · rename_i r _
        have h := s.carryOut_requests r
        exact ih (by omega) (by omega)
      · rfl

/-- With no head ready the engine does nothing (R136). -/
theorem State.engine_of_none {s : State} (h : s.readyHead = none) : s.engine = s := by
  unfold State.engine
  cases s.requests.length
  · rfl
  · simp [State.carryOutUpTo, h]

/-- A ready head is carried out, and the chain goes on (R136). -/
theorem State.engine_of_some {s : State} {r : Request} (h : s.readyHead = some r) : s.engine = (s.carryOut r).engine := by
  obtain ⟨rest, hs, _⟩ := State.readyHead_some h
  have hl := s.carryOut_requests r
  have hn : s.requests.length = rest.length + 1 := by rw [hs]; rfl
  unfold State.engine
  rw [hn]
  simp only [State.carryOutUpTo, h]
  exact State.carryOutUpTo_eq (by omega) (Nat.le_refl _)

/-- What a next state of an event's command is. -/
theorem State.event_next {s t : State} {f : State → State} (h : s.event f = .next t) :
    (s.resetAsserted = true ∧ t = s) ∨ (s.resetAsserted = false ∧ t = (f s).settle) := by
  unfold State.event at h
  cases hr : s.resetAsserted <;> simp_all

/-- An event's command on a running part. -/
theorem State.event_of_released {s : State} (f : State → State) (h : s.resetAsserted = false) :
    s.event f = .next (f s).settle := by simp [State.event, h]

/-! ### Zero runs (R116) -/

/-- The zero run reaches a figure among line bits where some first part of them leaves it that high. -/
theorem le_zeroPeak_iff (n run : Nat) (bits : List Bool) :
    n ≤ zeroPeak run bits ↔ ∃ k, n ≤ zerosAfter run (bits.take k) := by
  induction bits generalizing run with
  | nil => simp [zeroPeak, zerosAfter]
  | cons b bs ih =>
    simp only [zeroPeak, le_max_iff, ih]
    constructor
    · rintro (h | ⟨k, h⟩)
      · exact ⟨0, h⟩
      · exact ⟨k + 1, h⟩
    · rintro ⟨k, h⟩
      cases k with
      | zero => exact .inl h
      | succ k => exact .inr ⟨k, h⟩

/-- The run after line bits is at most the greatest among them. -/
theorem zerosAfter_le_zeroPeak (run : Nat) (bits : List Bool) : zerosAfter run bits ≤ zeroPeak run bits :=
  (le_zeroPeak_iff _ _ _).2 ⟨bits.length, by rw [List.take_length]⟩

/-! ### Lists -/

/-- `modifyLast` on a list with a newest element. -/
theorem modifyLast_append {α : Type} (p : α → Bool) (f : α → α) (l : List α) (a : α) :
    modifyLast p f (l ++ [a]) = l ++ [if p a then f a else a] := by
  induction l with
  | nil => simp [modifyLast]; split <;> rfl
  | cons b l ih =>
    cases l with
    | nil => simp [modifyLast]; split <;> rfl
    | cons c l => simpa [modifyLast] using ih

theorem modifyLast_length {α : Type} (p : α → Bool) (f : α → α) (l : List α) :
    (modifyLast p f l).length = l.length := by
  rcases l.eq_nil_or_concat with rfl | ⟨l, a, rfl⟩
  · rfl
  · simp [modifyLast_append]

end Sys2Proof.Machine
end

