-- ==== Sys2Proof/Laws/Requests.lean ====
section
/-! SUPPORT. What a served command comes to, and what the table and entry readers answer: the lemmas a proof about the
requests cites in place of unfolding the search for the command, the key comparison or the entry's layout. -/

namespace Sys2Proof.Machine

/-! ### Serving a request -/

/-- A command carried out over a ready head that holds its code: its run, then the reply, then the end of the event (R136,
R137, R140). -/
theorem State.Serves.command {s : State} {r : Request} {code : Byte} {operands : List Byte}
    (h : s.Serves r code operands) (c : Command) (hc : c.octet = code) (run : Request → State → State × Answer) :
    s.event (fun s => s.serve (some c) run) = .next ((run r s).1.reply r (run r s).2).settle := by
  obtain ⟨h1, h2, tag, h3⟩ := h
  have : r.command = some c := by
    simp only [Request.command, Request.commandOctet, h3]
    subst hc
    cases c <;> rfl
  simp [State.event, h1, State.serve, State.carry, h2, this]

/-- The operands its run reads (R137). -/
theorem State.Serves.operands {s : State} {r : Request} {code : Byte} {operands : List Byte}
    (h : s.Serves r code operands) : r.operands = operands := by
  obtain ⟨_, _, _, h3⟩ := h
  simp [Request.operands, h3]

/-! ### Counters -/

/-- A count raises its counter and no other (R151). -/
theorem State.counter_countN (s : State) (c k : Counter) (n : Nat) :
    (s.countN c n).counter k = s.counter k + if k = c then BitVec.ofNat 32 n else 0 := by
  have e : ∀ (v : Vector Word32 16) (i : Fin 16), v.get i = v[i.val] := fun _ _ => rfl
  simp only [State.counter, State.countN, e, Vector.getElem_set]
  by_cases hk : k = c
  · subst hk; simp
  · have hn : (c.number : Nat) ≠ k.number := by
      intro h
      apply hk
      revert h
      cases c <;> cases k <;> simp [Counter.number]
    simp [hk, hn]

/-! ### Tables -/

/-- The first entry that matches is the lookup's (R28). -/
theorem lookup_eq_some {table : List TableEntry} {da : Address} {p : Nat} {e : TableEntry} (h : table[p]? = some e)
    (hm : e.rule.key.admits da = true)
    (before : ∀ j < p, ∀ x, table[j]? = some x → x.rule.key.admits da = false) : lookup table da = some p := by
  unfold lookup
  rw [List.findIdx?_eq_some_iff_getElem]
  obtain ⟨hp, he⟩ := List.getElem?_eq_some_iff.1 h
  refine ⟨hp, by rw [he]; exact hm, fun j hj => ?_⟩
  have := before j hj table[j] (List.getElem?_eq_getElem _)
  simp [this]

/-- With no match the lookup is none (R28). -/
theorem lookup_eq_none {table : List TableEntry} {da : Address}
    (h : ∀ e ∈ table, e.rule.key.admits da = false) : lookup table da = none := by
  unfold lookup
  rw [List.findIdx?_eq_none_iff]
  exact h

/-- A staged copy's entries (R160). -/
theorem stageFrom_getElem? (n : Nat) (l : List TableEntry) (p : Nat) :
    (stageFrom n l)[p]? = (l[p]?).map (fun e => ⟨e.rule, some (n + p)⟩) := by
  induction l generalizing n p with
  | nil => simp [stageFrom]
  | cons a l ih =>
    cases p with
    | zero => simp [stageFrom]
    | succ p =>
      simp only [stageFrom, List.getElem?_cons_succ, ih]
      congr 1
      funext e
      congr 2
      omega

/-- A staged copy has the active table's length (R160). -/
theorem stageFrom_length (n : Nat) (l : List TableEntry) : (stageFrom n l).length = l.length := by
  induction l generalizing n with
  | nil => rfl
  | cons a l ih => simp [stageFrom, ih]

/-- Check S6 (R161): another staged entry holds the key. -/
theorem duplicates_iff (staged : List StagedEntry) (skip : Option Nat) (k : Key) :
    duplicates staged skip k = true ↔
      ∃ (i : Nat) (e : StagedEntry), some i ≠ skip ∧ staged[i]? = some e ∧ e.rule.key = k := by
  simp only [duplicates, List.any_eq_true, List.mem_range, Bool.and_eq_true, decide_eq_true_eq]
  constructor
  · rintro ⟨i, _, h1, h2⟩
    rw [Option.map_eq_some_iff] at h2
    obtain ⟨e, h2, h3⟩ := h2
    exact ⟨i, e, h1, h2, h3⟩
  · rintro ⟨i, e, h1, h2, h3⟩
    exact ⟨i, (List.getElem?_eq_some_iff.1 h2).1, h1, by rw [h2]; simp [h3]⟩

/-! ### Entry octets -/

theorem Action.ofOctet_octet (a : Action) : Action.ofOctet a.octet = some a := by cases a <;> rfl

theorem Policy.ofOctet_octet (p : Policy) : Policy.ofOctet p.octet = some p := by cases p <;> rfl

theorem readGroup_eq_none (form group : Byte) : readGroup form group = none ↔ 1 < form.toNat := by
  unfold readGroup
  split
  · subst_vars; simp
  · split
    · subst_vars; simp
    · rename_i h0 h1
      have a : form.toNat ≠ 0 := fun h => h0 (BitVec.eq_of_toNat_eq h)
      have b : form.toNat ≠ 1 := fun h => h1 (BitVec.eq_of_toNat_eq h)
      simp; omega

theorem Policy.ofOctet_eq_none (v : Byte) : Policy.ofOctet v = none ↔ 1 < v.toNat := by
  unfold Policy.ofOctet
  split
  · subst_vars; simp
  · split
    · subst_vars; simp
    · rename_i h0 h1
      have a : v.toNat ≠ 0 := fun h => h0 (BitVec.eq_of_toNat_eq h)
      have b : v.toNat ≠ 1 := fun h => h1 (BitVec.eq_of_toNat_eq h)
      simp; omega

theorem Action.ofOctet_eq_none (v : Byte) : Action.ofOctet v = none ↔ 2 < v.toNat := by
  unfold Action.ofOctet
  split
  · subst_vars; simp
  · split
    · subst_vars; simp
    · split
      · subst_vars; simp
      · rename_i h0 h1 h2
        have a : v.toNat ≠ 0 := fun h => h0 (BitVec.eq_of_toNat_eq h)
        have b : v.toNat ≠ 1 := fun h => h1 (BitVec.eq_of_toNat_eq h)
        have c : v.toNat ≠ 2 := fun h => h2 (BitVec.eq_of_toNat_eq h)
        simp; omega

/-- Check S3 (R161): which entry octets are out of range. -/
theorem readRule_eq_none (form group low high action policy label : Byte) :
    readRule form group low high action policy label = none ↔
      1 < form.toNat ∨ 2 < action.toNat ∨ 1 < policy.toNat ∨ high.toNat < low.toNat := by
  rw [← readGroup_eq_none form group, ← Action.ofOctet_eq_none, ← Policy.ofOctet_eq_none]
  unfold readRule
  cases readGroup form group <;> cases Action.ofOctet action <;> cases Policy.ofOctet policy <;> simp

/-- An entry's octets read back as the entry (11.4). -/
theorem readRule_octets (r : Rule) (group : Byte) (h : ∀ v, r.key.group = some v → group = v)
    (range : r.key.low.toNat ≤ r.key.high.toNat) :
    readRule (if r.key.group = none then 1 else 0) group r.key.low r.key.high r.action.octet r.policy.octet r.label =
      some r := by
  rcases r with ⟨⟨g, lo, hi⟩, a, p, l⟩
  simp only at h range ⊢
  cases g with
  | none => simp [readRule, readGroup, Action.ofOctet_octet, Policy.ofOctet_octet, range]
  | some v =>
    obtain rfl := h v rfl
    simp [readRule, readGroup, Action.ofOctet_octet, Policy.ofOctet_octet, range]

/-! ### Notice kinds -/

/-- A condition on every kind. -/
theorem noticeKinds_all (p : NoticeKind → Bool) : noticeKinds.all p = true ↔ ∀ k, p k = true := by
  simp only [noticeKinds, List.all_cons, List.all_nil, Bool.and_true, Bool.and_eq_true]
  constructor
  · rintro ⟨h7, h6, h5, h4, h3, h2, h1, h0⟩ k
    cases k <;> assumption
  · intro h
    exact ⟨h _, h _, h _, h _, h _, h _, h _, h _⟩

/-- Kinds of equal priority are one kind (R176). -/
theorem noticeCode_injective {j k : NoticeKind} (h : (noticeCode j).val = (noticeCode k).val) : j = k := by
  revert h
  cases j <;> cases k <;> simp [noticeCode]

/-! ### The return log -/

/-- The oldest entry of the header's frame identity is the match (R86). -/
theorem splitMatch_append {h : Header} {older newer : List LogEntry} {e : LogEntry}
    (no : ∀ x ∈ older, x.identifies h = false) (yes : e.identifies h = true) :
    splitMatch h (older ++ e :: newer) = some (older, e, newer) := by
  induction older with
  | nil => simp [splitMatch, yes]
  | cons a l ih =>
    simp [splitMatch, no a (by simp), ih (fun x hx => no x (by simp [hx]))]

theorem splitMatch_none {h : Header} {log : List LogEntry} (no : ∀ x ∈ log, x.identifies h = false) :
    splitMatch h log = none := by
  induction log with
  | nil => rfl
  | cons a l ih =>
    simp [splitMatch, no a (by simp), ih (fun x hx => no x (by simp [hx]))]

end Sys2Proof.Machine
end

