-- ==== Sys2Proof/Laws/Events.lean ====
section
/-! SUPPORT. The end of an event, said once: when the engine goes on, which notice may be sent, which resend may take a
place, and what the notice unit's turn leaves alone. A proof about an event cites these in place of unfolding the search
over the kinds. -/

namespace Sys2Proof.Machine

/-! ### The engine (R136) -/

/-- An event with a ready head goes on with that request carried out. -/
theorem State.settle_of_some {s : State} {r : Request} (h : s.readyHead = some r) : s.settle = (s.carryOut r).settle := by
  unfold State.settle
  rw [State.engine_of_some h]

/-- With no ready head only the notice unit's turn is left. -/
theorem State.settle_of_none {s : State} (h : s.readyHead = none) : s.settle = s.placeNotices := by
  unfold State.settle
  rw [State.engine_of_none h]

/-- The chain ends with no ready head. -/
theorem State.engine_readyHead (s : State) : s.engine.readyHead = none := by
  have upTo : ∀ (n : Nat) (s : State), s.requests.length ≤ n → (State.carryOutUpTo n s).readyHead = none := by
    intro n
    induction n with
    | zero =>
      intro s h
      simp [State.carryOutUpTo, State.readyHead, List.length_eq_zero_iff.1 (Nat.le_zero.1 h)]
    | succ n ih =>
      intro s h
      unfold State.carryOutUpTo
      split
      · rename_i r _
        have := s.carryOut_requests r
        exact ih _ (by omega)
      · assumption
  exact upTo _ _ (Nat.le_refl _)

/-- A head that waits still waits where the own output queue has no more room than before. -/
theorem State.readyHead_none_of_own {s : State} (own : List OwnFrame) (slots : Vector Slot 8) (noticeSeq : Byte)
    (h : s.readyHead = none) (grows : s.own.length ≤ own.length) :
    ({ s with own := own, slots := slots, noticeSeq := noticeSeq } : State).readyHead = none := by
  unfold State.readyHead at h ⊢
  cases hq : s.requests with
  | nil => rfl
  | cons q qs =>
    simp only [hq] at h ⊢
    split
    · rename_i hc
      exfalso
      rw [if_pos] at h
      · cases h
      · simp only [Bool.and_eq_true] at hc ⊢
        refine ⟨hc.1, ?_⟩
        have hp := hc.2
        unfold State.replyPlace at hp ⊢
        split <;> simp_all [State.ownPlace]
        omega
    · rfl

/-! ### Slots and kinds (R176, R177) -/

/-- A slot after one has been set. -/
theorem State.slot_set (s : State) (k j : NoticeKind) (x : Slot) (own : List OwnFrame) (noticeSeq : Byte) :
    ({ s with own := own, slots := s.slots.set (noticeCode k) x, noticeSeq := noticeSeq } : State).slot j =
      if j = k then x else s.slot j := by
  have e : ∀ (v : Vector Slot 8) (i : Fin 8), v.get i = v[i.val] := fun _ _ => rfl
  simp only [State.slot, e, Vector.getElem_set]
  cases j <;> cases k <;> simp [noticeCode]

theorem Slot.isPending_iff (x : Slot) : x.isPending = true ↔ ∃ occ d, x = .pending occ d := by
  cases x <;> simp [Slot.isPending]

theorem Slot.isOutstanding_iff (x : Slot) : x.isOutstanding = true ↔ ∃ n, x = .outstanding n := by
  cases x <;> simp [Slot.isOutstanding]

theorem mem_noticeKinds (k : NoticeKind) : k ∈ noticeKinds := by cases k <;> decide

/-- The kinds stand highest first. -/
theorem noticeKinds_pairwise : noticeKinds.Pairwise (fun a b => (noticeCode b).val < (noticeCode a).val) := by decide

/-- The first of the kinds with a property is the highest one. -/
theorem noticeKinds_find (p : NoticeKind → Bool) (k : NoticeKind) :
    noticeKinds.find? p = some k ↔ p k = true ∧ ∀ j, p j = true → (noticeCode j).val ≤ (noticeCode k).val := by
  have highest : ∀ m, noticeKinds.find? p = some m → ∀ j, p j = true → (noticeCode j).val ≤ (noticeCode m).val := by
    intro m h j hj
    obtain ⟨_, above, below, hl, ha⟩ := List.find?_eq_some_iff_append.1 h
    have hs := noticeKinds_pairwise
    have hm := mem_noticeKinds j
    rw [hl] at hs hm
    rcases List.mem_append.1 hm with hm | hm
    · have := ha j hm; simp [hj] at this
    · rcases List.mem_cons.1 hm with rfl | hm
      · exact Nat.le_refl _
      · exact Nat.le_of_lt ((List.pairwise_cons.1 (List.pairwise_append.1 hs).2.1).1 j hm)
  refine ⟨fun h => ⟨List.find?_some h, highest k h⟩, fun ⟨h1, h2⟩ => ?_⟩
  obtain ⟨m, hm⟩ := Option.isSome_iff_exists.1 (List.find?_isSome.2 ⟨k, mem_noticeKinds k, h1⟩)
  rw [hm, noticeCode_injective (Nat.le_antisymm (h2 m (List.find?_some hm)) (highest m hm k h1))]

theorem State.destSet_iff (s : State) : s.destSet = true ↔ s.params.noticeDest ≠ ⟨0, 0⟩ := by
  unfold State.destSet Address.unset
  exact decide_eq_true_iff

/-! ### First sends (R180, R181) -/

/-- The sendable slot (R180). -/
theorem State.sendable_eq_some (s : State) (k : NoticeKind) :
    s.sendable = some k ↔
      (s.slot k).isPending = true ∧
      (∀ j, (s.slot j).isPending = true → (noticeCode j).val ≤ (noticeCode k).val) ∧
      s.params.noticeDest ≠ ⟨0, 0⟩ ∧
      ∀ j, (s.slot j).isOutstanding = true → (noticeCode j).val < (noticeCode k).val := by
  have free : ∀ m, (s.destSet && noticeKinds.all (fun j => !(s.slot j).isOutstanding || higher m j)) = true ↔
      s.params.noticeDest ≠ ⟨0, 0⟩ ∧
        ∀ j, (s.slot j).isOutstanding = true → (noticeCode j).val < (noticeCode m).val := by
    intro m
    simp only [Bool.and_eq_true, s.destSet_iff, noticeKinds_all, Bool.or_eq_true, higher, decide_eq_true_eq,
      Bool.not_eq_true']
    refine and_congr_right fun _ => forall_congr' fun j => ?_
    cases (s.slot j).isOutstanding <;> simp
  unfold State.sendable
  split
  · rename_i h
    simp only [reduceCtorEq, false_iff]
    rintro ⟨hk, -⟩
    exact List.find?_eq_none.1 h k (mem_noticeKinds k) hk
  · rename_i m h
    obtain ⟨h1, h2⟩ := (noticeKinds_find _ m).1 h
    split
    · rename_i hc
      constructor
      · intro e
        obtain rfl := Option.some.inj e
        exact ⟨h1, h2, (free m).1 hc⟩
      · rintro ⟨a, b, -⟩
        rw [noticeCode_injective (Nat.le_antisymm (b m h1) (h2 k a))]
    · rename_i hc
      simp only [reduceCtorEq, false_iff]
      rintro ⟨a, b, c⟩
      obtain rfl := noticeCode_injective (Nat.le_antisymm (b m h1) (h2 k a))
      exact hc ((free m).2 c)

/-- With nothing sendable nothing is sent. -/
theorem State.sendFirst_of_none {s : State} (h : s.sendable = none) : s.sendFirst = s := by
  unfold State.sendFirst
  rw [h]

/-- A slot just sent is OUTSTANDING, so no second first send follows (R180). -/
theorem State.sendFirst_sendFirst (s : State) : s.sendFirst.sendFirst = s.sendFirst := by
  cases hs : s.sendable with
  | none => rw [State.sendFirst_of_none hs, State.sendFirst_of_none hs]
  | some k =>
    by_cases ho : s.ownPlace = true
    · have hk := (s.sendable_eq_some k).1 hs
      obtain ⟨occ, d, hp⟩ := (Slot.isPending_iff _).1 hk.1
      have e : s.sendFirst = s.firstSend k := by simp [State.sendFirst, hs, ho]
      have slot : ∀ j, (s.firstSend k).slot j = if j = k then s.firstSent occ d else s.slot j := by
        intro j
        simp only [State.firstSend, hp, State.placeNotice, State.setSlot]
        exact s.slot_set k j _ _ _
      rw [e]
      apply State.sendFirst_of_none
      rw [Option.eq_none_iff_forall_ne_some]
      intro j hj
      obtain ⟨h1, -, -, h4⟩ := (State.sendable_eq_some _ j).1 hj
      have h4 := h4 k (by rw [slot, if_pos rfl]; rfl)
      rw [slot] at h1
      split at h1
      · cases h1
      · have := hk.2.1 j h1
        omega
    · have e : s.sendFirst = s := by simp [State.sendFirst, hs, ho]
      rw [e, e]

/-- A first send takes a place; it frees none. -/
theorem State.sendFirst_own (s : State) : s.own.length ≤ s.sendFirst.own.length := by
  unfold State.sendFirst
  split
  · split
    · unfold State.firstSend
      split <;> simp [State.placeNotice, State.setSlot]
    · exact Nat.le_refl _
  · exact Nat.le_refl _

/-- A first send makes no head ready. -/
theorem State.sendFirst_readyHead {s : State} (h : s.readyHead = none) : s.sendFirst.readyHead = none := by
  obtain ⟨own, slots, n, e⟩ := s.sendFirst_frame
  have := s.sendFirst_own
  rw [e] at this ⊢
  exact State.readyHead_none_of_own own slots n h this

/-- A first send leaves an OUTSTANDING slot as it is. -/
theorem State.sendFirst_slot {s : State} {k : NoticeKind} {n : OutNotice} (h : s.slot k = .outstanding n) :
    s.sendFirst.slot k = .outstanding n := by
  unfold State.sendFirst
  split
  · rename_i j hj
    split
    · obtain ⟨occ, d, e⟩ := (Slot.isPending_iff _).1 ((s.sendable_eq_some j).1 hj).1
      simp only [State.firstSend, e, State.placeNotice, State.setSlot]
      rw [s.slot_set j k, if_neg, h]
      rintro rfl
      rw [h] at e
      cases e
    · exact h
  · exact h

/-- A first send before the end of an event is the one that end would make. -/
theorem State.settle_sendFirst {s : State} (h : s.readyHead = none) : s.sendFirst.settle = s.settle := by
  rw [State.settle_of_none h, State.settle_of_none (State.sendFirst_readyHead h)]
  unfold State.placeNotices
  rw [State.sendFirst_sendFirst]

/-! ### Resends (R182, R183) -/

/-- A resend that falls due in this millisecond (R183). -/
theorem Slot.resendDue_iff (now : Word32) (retries : Nat) (x : Slot) :
    x.resendDue now retries = true ↔
      ∃ m start interval, x = .outstanding m ∧ m.deadline = some (start, interval) ∧
        interval ≤ (now - start).toNat ∧ m.sends ≤ retries := by
  cases x with
  | idle => simp [Slot.resendDue]
  | pending occ d => simp [Slot.resendDue]
  | outstanding m =>
    simp only [Slot.resendDue, Slot.outstanding.injEq, exists_and_left, existsAndEq, true_and]
    rcases m.deadline with - | ⟨start, interval⟩
    · simp
    · simp [deadlineReached]

/-- When a waiting resend of a kind may take a place (R182, R183, log entry 5). -/
theorem State.resendPlace_iff (s : State) (k : NoticeKind) :
    s.resendPlace k = true ↔
      s.params.noticeDest ≠ ⟨0, 0⟩ ∧ s.own.length < 6 ∧
      ¬ ∃ j m start interval, (noticeCode k).val < (noticeCode j).val ∧ s.slot j = .outstanding m ∧
          m.deadline = some (start, interval) ∧ interval ≤ (s.timer - start).toNat ∧ m.sends ≤ s.params.noticeRetries := by
  unfold State.resendPlace
  simp only [Bool.and_eq_true, s.destSet_iff, noticeKinds_all, State.ownPlace, Config.ownFrames, decide_eq_true_eq,
    and_assoc, Bool.not_eq_true', Bool.and_eq_false_iff, higher, decide_eq_false_iff_not, not_exists]
  refine and_congr_right fun _ => and_congr_right fun _ => ⟨?_, ?_⟩
  · rintro h j m start interval ⟨h1, h2⟩
    have := (Slot.resendDue_iff s.timer s.params.noticeRetries (s.slot j)).2 ⟨m, start, interval, h2⟩
    rcases h j with h | h
    · exact h h1
    · rw [this] at h
      cases h
  · intro h j
    by_cases hj : (s.slot j).resendDue s.timer s.params.noticeRetries = true
    · obtain ⟨m, start, interval, h2⟩ := (Slot.resendDue_iff _ _ _).1 hj
      exact .inl fun h1 => h j m start interval ⟨h1, h2⟩
    · exact .inr (by simpa using hj)

/-- A waiting resend that may take a place is placed. -/
theorem State.resendOf_place {s : State} {k : NoticeKind} {n : OutNotice} (h : s.slot k = .outstanding n)
    (waits : n.deadline = none) (place : s.resendPlace k = true) : s.resendOf k = s.resend k n := by
  simp [State.resendOf, h, waits, place]

/-- A resend that does not wait, or has no place, leaves the state as it is. -/
theorem State.resendOf_stay {s : State} {k : NoticeKind}
    (h : (s.slot k).resendWaits = true → s.resendPlace k = false) : s.resendOf k = s := by
  unfold State.resendOf
  split
  · rename_i n hn
    rw [hn] at h
    cases hd : n.deadline with
    | none => simp [h (by simp [Slot.resendWaits, hd])]
    | some d => simp
  · rfl

/-- A resend leaves the other slots as they are. -/
theorem State.resendOf_slot (s : State) {j k : NoticeKind} (h : k ≠ j) : (s.resendOf j).slot k = s.slot k := by
  unfold State.resendOf
  split
  · split
    · simp only [State.resend, State.setSlot, State.placeNotice]
      exact (s.slot_set j k _ _ s.noticeSeq).trans (if_neg h)
    · rfl
  · rfl

/-- With no place, or with NOTICE_DEST unset, no resend is made. -/
theorem State.resendWaiting_of_no_place {s : State} (h : s.params.noticeDest = ⟨0, 0⟩ ∨ 6 ≤ s.own.length) :
    s.resendWaiting = s := by
  have stay : ∀ l : List NoticeKind, l.foldl State.resendOf s = s := by
    intro l
    induction l with
    | nil => rfl
    | cons k l ih =>
      rw [List.foldl_cons, State.resendOf_stay, ih]
      intro _
      rw [← Bool.not_eq_true, s.resendPlace_iff]
      rintro ⟨h1, h2, -⟩
      rcases h with h | h
      · exact h1 h
      · omega
  exact stay _

/-- With no resend waiting none is made. -/
theorem State.resendWaiting_of_none {s : State} (h : ∀ k, (s.slot k).resendWaits = false) : s.resendWaiting = s := by
  have stay : ∀ l : List NoticeKind, l.foldl State.resendOf s = s := by
    intro l
    induction l with
    | nil => rfl
    | cons k l ih =>
      rw [List.foldl_cons, State.resendOf_stay, ih]
      simp [h k]
  exact stay _

end Sys2Proof.Machine
end

