-- ==== Sys2Proof/WellFormed.lean ====
section
/-! DEFINITION. Which command terms name an event that a line can bring: fewer than eight data bits stand between an
octet boundary and a flag, because the eighth completes an octet (R4, R5, R12, R115), and at most four are settled beyond
the octet they complete, because one zero settles at most five data bits (R1). -/

namespace Sys2Proof

/-- The data bits between the last octet boundary and a flag (R12: "the 1 to 7 bits in the collector"). -/
def shortTail (tail : List Bool) : Bool := decide (tail.length ≤ 7)

/-- The data bits a zero settles beyond the octet it completes: of the at most five it settles, the first may complete the
octet (R1). -/
def shortRest (rest : List Bool) : Bool := decide (rest.length ≤ 4)

/-- A well-formed command. Only the commands that carry such bits have something to check. -/
def Instr.wellFormed : Instr → Bool
  | .powerOnReset _ _ => true
  | .loopFlag tail _ => shortTail tail
  | .loopOctet _ rest _ => shortRest rest
  | .loopAbort => true
  | .lineIdle => true
  | .lineSilenceDeadline => true
  | .arbiterChoice => true
  | .underrun _ => true
  | .forwardComplete => true
  | .insertionEnd => true
  | .abortComplete => true
  | .returnTimeoutExpiry => true
  | .portBreak _ => true
  | .portBreakEnd => true
  | .stationFrameGood => true
  | .stationFrameDiscard (.flag tail) => shortTail tail
  | .stationFrameDiscard (.excess _ rest) => shortRest rest
  | .stationFrameDiscard .abort => true
  | .portTxChoice => true
  | .portReportSent => true
  | .portTxAbortComplete => true
  | .badCommand => true
  | .status => true
  | .paramRead => true
  | .paramWrite => true
  | .listRead => true
  | .listWrite => true
  | .tableRead => true
  | .countersRead => true
  | .sessionOpen => true
  | .entryInsert => true
  | .entryReplace => true
  | .entryRemove => true
  | .sessionCommit => true
  | .sessionDiscard => true
  | .noticeAck => true
  | .restart => true
  | .sessionTimeoutExpiry => true
  | .noticeFirstSend => true
  | .noticeRetryDeadline _ => true
  | .noticeResend => true
  | .powerOnResetAssert => true
  | .stationFlag tail => shortTail tail
  | .stationOctet _ rest => shortRest rest
  | .stationAbort _ => true

end Sys2Proof
end

