-- ==== Sys2Proof/Tests/Slice0.lean ====
section
/-! SUPPORT. Tests and witnesses. The expected values of the tests are the spec's own examples and tables, named in each
docstring. After them stands, for each statement with hypotheses, one theorem with concrete values that meet them, clause by
clause and at the ends of the ranges. -/

namespace Sys2Proof.Tests

open Sys2Proof Sys2Proof.Machine

/-! ### Well-formed commands -/

theorem test_wellFormed_refuses_eight_tail_bits_of_a_loop_flag :
    (Instr.loopFlag (List.replicate 8 true)).wellFormed = false ∧
      (Instr.loopFlag (List.replicate 7 true)).wellFormed = true := by decide

theorem test_wellFormed_refuses_eight_tail_bits_of_a_station_flag :
    (Instr.stationFlag (List.replicate 8 false)).wellFormed = false ∧
      (Instr.stationFlag (List.replicate 7 false)).wellFormed = true := by decide

theorem test_wellFormed_refuses_eight_tail_bits_of_a_discarded_frame :
    (Instr.stationFrameDiscard (.flag (List.replicate 8 true))).wellFormed = false ∧
      (Instr.stationFrameDiscard (.flag [])).wellFormed = true := by decide

/-- R1: one zero settles at most five data bits, so at most four stand beyond the octet it completes. -/
theorem test_wellFormed_refuses_five_bits_beyond_an_octet :
    (Instr.loopOctet 0 (List.replicate 5 true)).wellFormed = false ∧
      (Instr.stationOctet 0 (List.replicate 5 true)).wellFormed = false ∧
      (Instr.stationFrameDiscard (.excess 0 (List.replicate 5 true))).wellFormed = false ∧
      (Instr.loopOctet 0 (List.replicate 4 true)).wellFormed = true := by decide

/-! ### Small states -/

/-- The next state of a command, if it answers one. -/
def next? (c : Instr) (s : State) : Option State :=
  match exec c s with
  | .next t => some t
  | _ => none

/-- The state after a command; the state itself where it answers none. -/
def after (c : Instr) (s : State) : State := (next? c s).getD s

/-- The part after reset with its port ACTIVE. -/
def active : State := { State.reset with port := .active }

/-- A header. -/
def header (da sa : Address) (kind : Byte) (hops declared : Nat) : Header := ⟨da, sa, kind, ⟨hops, false, false⟩, declared⟩

/-- The state with seven octets of a header received. -/
def atSeven (h : Header) (s : State) : State :=
  { s with rx := ⟨.frame ⟨7, 0, h.octets.take 7, none, []⟩, 0, []⟩ }

/-- A frame with its header complete. -/
def frameAt (count declared : Nat) : RxFrame := ⟨count, 0, [], some declared, []⟩

/-- An address of the loop. -/
def peer : Address := ⟨3, 1⟩

/-- The part after reset with one request from the loop at the head. -/
def asked (octets : List Byte) : State := { active with requests := [⟨.loop peer, octets, true⟩] }

/-- The same with a session open, owned by the requester, its last command 10 ms ago. -/
def askedIn (staged : List StagedEntry) (octets : List Byte) : State :=
  { asked octets with session := some ⟨.loop peer, staged, 0⟩, timer := 10 }

/-- The result and data octets of the reply last placed on the loop. -/
def answer (s : State) : List Byte := ((s.own.getLast?.map (fun f => f.info)).getD []).drop 2

/-- An OUTSTANDING station entry. -/
def entryOf (seq : Byte) (da : Address) (state : LogState) : LogEntry :=
  ⟨seq, .station 5 .normal, da, ⟨12, 7⟩, 0x01, 4, 0, state, false⟩

/-- A station frame of a class. -/
def frameOf (cls : StationClass) : StationFrame := ⟨5, cls, ⟨12, 9⟩, ⟨12, 7⟩, 0x01, 1, [0xAA]⟩

/-- A frame of the part's own. -/
def ownOf : OwnFrame := ⟨header peer ⟨12, 7⟩ kindReply 0 1, [0x55]⟩

/-- A transit entry of declared length 2. -/
def transitOf (released : Nat) (status : EndStatus) (sending : Sending) : TransitEntry :=
  ⟨10, header ⟨9, 9⟩ peer 0x01 3 2, if status = .good then [1, 2] else [], if status = .good then 10 else 8, released, 0,
    status, sending⟩

/-- A shared record. -/
def refusal : Report := .refusal 1 .normal .badSource 8 8 3072

/-- A COMPLETION record. -/
def completion : Report := .completion 1 .normal 0 .lost

/-! ### The line code -/

/-- 01, after R11: a computed FCS of 0x1A2B is sent as 0xD4 then 0xE5, and found good again. -/
theorem test_fcs_field_of_1A2B :
    (~~~ (0x1A2B : Word16)).extractLsb' 0 8 = 0xD4 ∧ (~~~ (0x1A2B : Word16)).extractLsb' 8 8 = 0xE5 ∧
      (⟨10, 0x1A2B, [], some 0, [0xD4, 0xE5]⟩ : RxFrame).fcsGood = true := by decide

/-- R60: a zero goes after five consecutive ones, and 0x7E as data is no flag. -/
theorem test_zero_insertion :
    stuff 0 (octetBits 0xFF) = [true, true, true, true, true, false, true, true, true] ∧
      stuff 0 (octetBits 0x7E) = [false, true, true, true, true, true, false, true, false] := by decide

/-- R2: two flags may share one zero; both are recognised, and neither leaves data. -/
theorem test_flags_share_a_zero :
    (⟨0, []⟩ : LineRx).bits (flagBits ++ [true, true, true, true, true, true, false]) =
      (⟨0, []⟩, [.flag [], .flag []]) := by decide

/-- R1: the seventh one is an abort, the fifteenth is line idle. -/
theorem test_fifteen_ones :
    ((⟨0, []⟩ : LineRx).bits (List.replicate 15 true)).2 = [.abort, .idle] := by decide

/-- The state after a run of bits on the loop receive line. -/
def loopBits (bits : List Bool) (s : State) : State := bits.foldl State.loopBit s

/-- The state after a run of bits on the station receive line. -/
def stationBits (bits : List Bool) (s : State) : State := bits.foldl State.stationBit s

/-- R1: after an abort the zero that ends the ones brings the run count back to 0, so an octet of ones after it is no line
idle. -/
theorem test_run_count_after_an_abort :
    let s := loopBits (List.replicate 7 true) active
    s.rx.run = 7 ∧ (loopBits [false] s).rx.run = 0 ∧ (loopBits (false :: stuff 0 (octetBits 0xFF)) s).rx.run = 3 := by decide

/-- R116: the thirty-second zero in HUNT begins a break, the thirty-first does not; ones between start the count again. -/
theorem test_thirty_two_zeros_begin_a_break :
    (stationBits (List.replicate 31 false) active).port = .active ∧
      (stationBits (List.replicate 32 false) active).port = .break ∧
      (stationBits (List.replicate 31 false ++ true :: List.replicate 31 false) active).port = .active := by decide

/-- R116: after an abort, the octets 00 00 00 80 bring the zero run to 32 at the last octet's seventh bit, and the one after it
does not undo the break; without the zero that ended the abort the run stops at 31. -/
theorem test_a_break_begins_inside_an_octet :
    let aborted := stationBits (List.replicate 7 true) active
    let octets (vs : List Byte) (s : State) : State := vs.foldl (fun t v => after (.stationOctet v) t) s
    (octets [0, 0, 0, 0x80] aborted).port = .break ∧ (octets [0, 0, 0, 0x80] aborted).srx.zeroRun = 0 ∧
      (octets [0, 0, 0, 0x80] active).port = .active ∧
      (stationBits (false :: (lineBits [0, 0, 0, 0x80])) aborted).port = .break := by decide

/-! ### Reset and straps -/

/-- 02, after R22: straps 12 and 7 give SERVICE, 12 and 255 REPEATER, 0 and 7 REPEATER. -/
theorem test_straps_fix_the_mode :
    (after (.powerOnReset 12 7) active).mode = .service ∧ (after (.powerOnReset 12 255) active).mode = .repeater ∧
      (after (.powerOnReset 0 7) active).mode = .repeater := by decide

/-- R63: the loop transmit line is held at one while the pin is asserted. -/
theorem test_asserted_reset_holds_the_line :
    (after .powerOnResetAssert active).loopLine = .ones ∧ (after .powerOnResetAssert active).resetAsserted = true := by
  decide

/-! ### The classifier -/

/-- The table of 02 section 2.5's example. -/
def nineTable : List TableEntry :=
  [⟨⟨⟨some 12, 7, 7⟩, .copy, .mark, 1⟩, 10⟩, ⟨⟨⟨some 12, 0, 63⟩, .pass, .quiet, 2⟩, 200⟩,
    ⟨⟨⟨none, 255, 255⟩, .copy, .quiet, 3⟩, 5⟩, ⟨⟨⟨some 30, 0, 255⟩, .drop, .quiet, 4⟩, 0⟩,
    ⟨⟨⟨some 12, 40, 40⟩, .copy, .mark, 5⟩, 0⟩]

/-- The part of that example. -/
def nine : State := { active with active := nineTable, identity := #v[some ⟨12, 7⟩, some ⟨12, 40⟩, none, none] }

/-- 02, the example of nine headers: the verdict and the matched position of each. -/
theorem test_nine_headers_verdicts :
    [nine.find (header ⟨12, 7⟩ ⟨3, 1⟩ 1 4 20), nine.find (header ⟨12, 40⟩ ⟨5, 5⟩ 1 9 0),
      nine.find (header ⟨255, 255⟩ ⟨12, 40⟩ 1 17 6), nine.find (header ⟨30, 2⟩ ⟨8, 8⟩ 1 32 10),
      nine.find (header ⟨255, 255⟩ ⟨7, 3⟩ 1 2 64), nine.find (header ⟨12, 7⟩ ⟨1, 1⟩ 2 5 4),
      nine.find (header ⟨40, 1⟩ ⟨2, 2⟩ 1 0 700), nine.find (header ⟨30, 9⟩ ⟨9, 9⟩ 0x77 1 3),
      nine.find (header ⟨50, 50⟩ ⟨9, 9⟩ 1 1 3)] =
    [⟨.copy, some 0⟩, ⟨.pass, some 1⟩, ⟨.strip, none⟩, ⟨.orphan, none⟩, ⟨.copy, some 2⟩, ⟨.manage, none⟩,
      ⟨.badHeader, none⟩, ⟨.drop, some 3⟩, ⟨.pass, none⟩] := by decide

/-- 02, frame a: KEPT, forwarded with hops 5 and CLAIMED; its entry's hit count rises from 10 to 11; the copy keeps hops 4
and both marks clear (06, after R109). -/
theorem test_nine_headers_frame_a :
    let t := after (.loopOctet 20) (atSeven (header ⟨12, 7⟩ ⟨3, 1⟩ 1 4 20) nine)
    t.verdict = some ⟨.copy, some 1, some .mark, true, true, some .kept, some .claimed⟩ ∧
      t.transit.map (fun e => e.header.tally) = [⟨5, true, false⟩] ∧
      t.delivery.map (fun e => e.header.tally) = [⟨4, false, false⟩] ∧ t.active.map (fun e => e.hits) = [11, 200, 5, 0, 0] := by
  decide

/-- 03, after R49: hops 3, CLAIMED clear, REFUSED set, KEPT under MARK is rewritten with hops 4 and both marks set. -/
theorem test_rewritten_tally :
    (Header.rewrite ⟨⟨12, 7⟩, ⟨3, 1⟩, 1, ⟨3, false, true⟩, 0⟩ (some .claimed)).tally = ⟨4, true, true⟩ := by decide

/-- 03, the cut-through forward: received, released and sent at info octets 28 and 40, and at the frame's GOOD end. -/
theorem test_octets_sent_of_a_cut_through_copy :
    let h := header ⟨20, 3⟩ ⟨4, 1⟩ 0x01 4 40
    let s (f : RxFrame) (released sent : Nat) : State :=
      { active with
        rx := ⟨.frame f, 0, []⟩, verdict := some (.passed none), ltx := .forwarding
        transit := [⟨48, h, [], min f.count 48, released, sent, .arriving, .yes⟩] }
    let figures (t : State) : List (List Nat) := t.transit.map (fun e => [e.received, e.released, e.sent])
    figures (after (.loopOctet 0) (s (frameAt 35 40) 35 11)) = [[36, 36, 12]] ∧
      figures (after (.loopOctet 0) (s (frameAt 47 40) 47 23)) = [[48, 47, 24]] ∧
      figures (after (.loopFlag []) (s ⟨50, 0xFFFF, [], some 40, [0, 0]⟩ 47 26)) = [[48, 48, 27]] := by decide

/-- 03, the underrun: W's entry when octet 100 arrives after 12 octet times (received and released 108, sent 96), and at
octet 142 after the octet times that bring sent to 150. The need then is an underrun: W is ABANDONED with its figures as they
are, UNDERRUN is counted and raised with 6.2. With octets still to be sent there is none. -/
theorem test_underrun_of_a_gaining_copy :
    let h := header ⟨6, 2⟩ ⟨6, 2⟩ 0x01 4 300
    let s (count sent : Nat) : State :=
      { active with
        rx := ⟨.frame (frameAt count 300), 0, []⟩, verdict := some (.passed none), ltx := .forwarding
        transit := [⟨308, h, [], count, count, sent, .arriving, .yes⟩] }
    let figures (t : State) : List (List Nat) := t.transit.map (fun e => [e.received, e.released, e.sent])
    let at150 := after (.loopOctet 0 [] 9) (s 149 140)
    let t := after (.underrun 1) at150
    figures (after (.loopOctet 0 [] 12) (s 107 84)) = [[108, 108, 96]] ∧ figures at150 = [[150, 150, 149]] ∧
      figures t = [[150, 150, 150]] ∧ t.transit.map (fun e => e.sending) = [.abandoned] ∧ t.ltx = .aborting ∧
      t.counter .underrun = 1 ∧ t.slot .underrun = .pending 1 (.address ⟨6, 2⟩) ∧
      after .underrun at150 = at150 := by decide

/-! ### The line supervisor -/

/-- R19: the second of two flags in sequence makes a DOWN line UP and raises LINE_UP with the time it became DOWN. -/
theorem test_two_flags_make_the_line_up :
    let s := after (.loopFlag []) { active with timer := 7 }
    s.sup.line = .down ∧ (after (.loopFlag []) s).sup.line = .up ∧
      (after (.loopFlag []) s).slot .lineUp = .pending 1 (.time 0) := by decide

/-- R16: a deadline is judged modulo 2^32. -/
theorem test_deadline_across_the_wrap :
    deadlineReached 2 0xFFFFFFFF 3 = true ∧ deadlineReached 2 0xFFFFFFFF 4 = false := by decide

/-! ### The station port -/

/-- 07, after R123: with 8 shared records a discard's PORT STATUS is held, a further refusal is a silent discard, and the
held record joins the tail when the first REFUSAL has been sent. -/
theorem test_port_status_is_held :
    let s : State := { active with reports := List.replicate 5 completion ++ List.replicate 7 refusal ++
                                    [.noticeCopy .started 1 .powerOn] }
    let t := s.discard.refuse 2 .normal .badSource
    t.reports = s.reports ∧ t.statusHeld = true ∧ t.discarded = 2 ∧
      (after .portReportSent { t with reports := t.reports.drop 5, ptx := .record }).reports =
        List.replicate 6 refusal ++ [.noticeCopy .started 1 .powerOn, .portStatus none] := by decide

/-- R68: a frame of declared length 512 reserves 520 octets of the 3,072, so five leave room for no sixth. -/
theorem test_outbound_store_holds_five_longest :
    let f : StationFrame := ⟨1, .urgent, ⟨1, 1⟩, ⟨12, 7⟩, 1, 512, []⟩
    ({ active with urgent := List.replicate 5 f } : State).freeOutbound = 472 ∧
      ({ active with urgent := List.replicate 5 f } : State).stationFull .normal 512 = true ∧
      ({ active with urgent := List.replicate 5 f } : State).stationFull .normal 464 = false := by decide

/-! ### Management -/

/-- 08, after R152: counters 10 to 13 are read and cleared, 9 and 14 stay. -/
theorem test_counters_read_and_clear :
    let s : State := { asked [7, 0x07, 10, 4, 1] with
                       counters := #v[0, 0, 0, 0, 0, 0, 0, 0, 0, 2, 517, 3, 0, 0xFFFFFFFF, 12, 0] }
    let t := after .countersRead s
    t.counters = #v[0, 0, 0, 0, 0, 0, 0, 0, 0, 2, 0, 0, 0, 0, 12, 0] ∧
      answer t = [0, 0, 10, 0, 0, 2, 5, 11, 0, 0, 0, 3, 12, 0, 0, 0, 0, 13, 255, 255, 255, 255] := by decide

/-- R143 and R142: HOP_LIMIT reads 32 after reset. -/
theorem test_hop_limit_reads_32 : answer (after .paramRead (asked [7, 0x02, 1])) = [0, 0, 1, 0, 32] := by decide

/-- R144: 64 is above HOP_LIMIT's range, 63 is in it. -/
theorem test_hop_limit_range :
    answer (after .paramWrite (asked [7, 0x03, 1, 0, 64])) = [3, 0] ∧
      (after .paramWrite (asked [7, 0x03, 1, 0, 63])).params.hopLimit = 63 := by decide

/-- 02, a frame across a commit: the commit installs the staged DROP at hit count 0 and raises the epoch from 4 to 5. -/
theorem test_commit_installs_the_staged_entry :
    let s : State :=
      { askedIn [⟨⟨⟨some 12, 7, 7⟩, .drop, .quiet, 9⟩, none⟩] [7, 0x14] with
        epoch := 4, active := [⟨⟨⟨some 12, 7, 7⟩, .copy, .mark, 1⟩, 12⟩] }
    let t := after .sessionCommit s
    t.epoch = 5 ∧ t.active = [⟨⟨⟨some 12, 7, 7⟩, .drop, .quiet, 9⟩, 0⟩] ∧ t.session = none ∧ answer t = [0, 5, 1] := by
  decide

/-- R139: with a manager list that holds another address the loop requester has no authority. -/
theorem test_manager_list_bars_others :
    answer (after .restart { asked [7, 0x30] with managers := #v[some ⟨8, 8⟩, none, none, none] }) = [1, 0] ∧
      answer (after .restart { asked [7, 0x30] with managers := #v[some peer, none, none, none] }) = [0, 0] := by decide

/-! ### Notices -/

/-- R178 and R176: a raise of a PENDING slot adds an occurrence and replaces the detail; the count stays at 255. -/
theorem test_raise_saturates :
    (({ active with slots := active.slots.set 3 (.pending 255 (.address peer)) } : State).raise .orphan
      (.address ⟨8, 8⟩)).slot .orphan = .pending 255 (.address ⟨8, 8⟩) := by decide

/-- R184: an acknowledged notice with occurrences since its send becomes PENDING with them. -/
theorem test_ack_reopens :
    let s : State := { asked [7, 0x20, 3, 9] with
                       slots := active.slots.set 3 (.outstanding ⟨4, 2, 9, 1, none, .address peer⟩) }
    (after .noticeAck s).slot .orphan = .pending 2 (.address peer) ∧ answer (after .noticeAck s) = [0, 0, 3, 1, 2] := by
  decide

/-- 08, requests under pressure, the last row: at the second freed place B is refused, and C and D are carried out in the
same event. -/
theorem test_requests_under_pressure :
    let s : State :=
      { active with
        managers := #v[some ⟨1, 1⟩, none, none, none], own := List.replicate 6 ownOf
        requests := [⟨.loop ⟨2, 2⟩, [7, 0x03, 1, 0, 9], true⟩, ⟨.station 33, [7, 0x07, 0, 1, 0], true⟩,
          ⟨.station 34, [7, 0x04, 0], true⟩] }
    let t := after .arbiterChoice s
    t.requests = [] ∧ t.own.length = 6 ∧ answer t = [1, 0] ∧ t.replies.map (fun r => r.tag) = [33, 34] := by decide

/-- R187: a write of NOTICE_DEST from 0.0 sends the highest PENDING slot in its event, behind the reply. -/
theorem test_notice_dest_write_sends_a_notice :
    let t := after .paramWrite (asked [7, 0x03, 5, 3, 1])
    t.own.map (fun f => f.header.kind) = [0x03, 0x04] ∧ (t.slot .started).isOutstanding = true := by decide

/-- R153: with NOTICE_DEST set, STARTED's frame follows RESTART's reply in the same event. -/
theorem test_restart_sends_started_behind_the_reply :
    let s := asked [7, 0x30]
    let t := after .restart { s with params := { s.params with noticeDest := peer } }
    t.own.map (fun f => f.header.kind) = [0x03, 0x04] ∧ (t.slot .started).isOutstanding = true := by decide

/-! ### Witnesses

Each is named for its statement: concrete values that meet the statement's hypotheses together, and those of each clause. -/

theorem witness_StepRunsFrontCommand :
    ({ active with pending := [.loopAbort] } : State).pending = .loopAbort :: [] ∧ State.reset.pending = [] ∧
      State.reset.resetAsserted = false ∧ State.reset.asserted.pending = [] ∧ State.reset.asserted.resetAsserted = true := by
  decide

theorem witness_AssertedResetHoldsThePart :
    State.reset.asserted.resetAsserted = true ∧ (∀ g m, Instr.loopAbort ≠ .powerOnReset g m) ∧
      Instr.loopAbort ≠ .powerOnResetAssert := ⟨rfl, fun _ _ h => (by cases h), by decide⟩

theorem witness_LineCodeRoundTrip : (⟨6, [true]⟩ : LineRx).run ≤ 6 ∧ (⟨0, []⟩ : LineRx).run ≤ 6 := by decide

/-- Loop line: runs on both sides of five, six and seven ones and at fourteen, collectors that a zero leaves short of eight
bits and fills. Station line: the same runs and collectors in FILL; in HUNT the thirty-first zero and the thirty-second, and a
BREAK; in FRAME the counts on both sides of the excess octet, and a frame that a flag finds GOOD. -/
theorem witness_LinesBitByBit :
    let l (run held : Nat) : State := { active with rx := ⟨.fill, run, List.replicate held true⟩ }
    let data (s : State) : List Bool := List.replicate s.rx.run true ++ (if s.rx.run ≤ 4 then [false] else [])
    let z (run zeros : Nat) : State := { active with srx := ⟨.hunt, run, zeros, []⟩ }
    let p (run held : Nat) : State := { active with srx := ⟨.fill, run, 0, List.replicate held true⟩ }
    let f (run held : Nat) (x : RxFrame) : State := { active with srx := ⟨.frame x [], run, 0, List.replicate held true⟩ }
    let whole : RxFrame := ⟨11, 0xFFFF, [], some 0, [0, 0]⟩
    (∀ s ∈ [l 0 7, l 4 2, l 4 3, l 5 2, l 5 3, l 6 7, l 7 0, l 13 0, l 14 0, l 15 0],
        s.resetAsserted = false ∧ s.rx.collector.length ≤ 7) ∧
      (((l 4 2).rx.collector ++ data (l 4 2)).length < 8 ∧ 8 ≤ ((l 4 3).rx.collector ++ data (l 4 3)).length ∧
        ((l 5 2).rx.collector ++ data (l 5 2)).length < 8 ∧ 8 ≤ ((l 5 3).rx.collector ++ data (l 5 3)).length) ∧
      (∀ s ∈ [z 0 30, z 0 31, z 7 0, z 6 0, z 14 0, p 4 2, p 4 3, p 5 2, p 5 3, p 6 7, p 14 0, f 6 0 whole, f 5 3 (frameAt 10 0),
          f 5 3 (frameAt 11 0)],
        s.resetAsserted = false ∧ s.srx.collector.length ≤ 7 ∧ s.port = .active) ∧
      (32 ≤ (z 0 31).srx.zeroRun + 1 ∧ (z 0 30).srx.zeroRun + 1 < 32) ∧
      ((p 5 2).srx.collector.length + 5 < 8 ∧ 8 ≤ (p 5 3).srx.collector.length + 5) ∧
      ((frameAt 10 0).count ≠ 9 + 0 + 2 ∧ (frameAt 11 0).count = 9 + 0 + 2) ∧
      ((f 6 0 whole).srx.collector = [] ∧ 11 ≤ whole.count ∧ 9 + whole.declared.getD 0 + 2 ≤ whole.count ∧ whole.fcsGood = true) ∧
      (State.reset.port = .break ∧ State.reset.srx.state = .hunt ∧
        ({ State.reset with srx := ⟨.hunt, 6, 0, []⟩ } : State).srx.run = 6) := by decide

theorem witness_SentFrameEndsGood :
    let h := header peer peer 0x01 63 65535
    h.tally.hops ≤ 63 ∧ h.declared = (List.replicate 65535 (0 : Byte)).length ∧
      (List.replicate 65535 (0 : Byte)).length ≤ 65535 :=
  ⟨by decide, List.length_replicate.symm, List.length_replicate.le⟩

theorem witness_PassedFrameIsForwardedWhole :
    let e : TransitEntry := ⟨250, header peer peer 1 1 242, [], 8, 8, 0, .good, .no⟩
    let s : State := { nine with rx := ⟨.fill, 0, []⟩, transit := List.replicate 5 e }
    let h := header ⟨50, 50⟩ ⟨9, 9⟩ 0x02 31 22
    let info := List.replicate 22 (0 : Byte)
    ((loopFrame h info).map (fun v => (v, [true], 2))).map Prod.fst = loopFrame h info ∧
      s.resetAsserted = false ∧ s.readyHead = none ∧ s.mode = .service ∧ s.rx.state = .fill ∧ h.tally.hops ≤ 63 ∧
      h.declared = info.length ∧ info.length ≤ 512 ∧
      some h.sa ∉ s.identity.toList ∧ h.tally.hops < s.params.hopLimit ∧ ¬ (h.da = s.strapped ∧ h.kind = 0x02) ∧
      (∀ e ∈ s.active, e.rule.key.admits h.da = false) ∧ s.params.defaultAction = .pass ∧ s.transit.length < 6 ∧
      (s.transit.map (fun e => e.reservation)).sum + (8 + h.declared) ≤ 1280 := by
  intro e s h info
  refine ⟨?_, by decide⟩
  rw [List.map_map]
  exact List.map_id _

/-- A head of each source with a place, without one, and not complete; NOTICE_DEST unset, no place, and nothing to send. -/
theorem witness_EventEndsCarryingOut :
    let r : Request := ⟨.loop peer, [7, 0x01], true⟩
    let q : Request := ⟨.station 3, [7, 0x01], true⟩
    let s : State := { active with requests := [r] }
    active.resetAsserted = false ∧ (s.readyHead = some r ∧ r.command = some .status) ∧
      ({ s with own := List.replicate 6 ownOf } : State).readyHead = none ∧
      ({ active with requests := [q] } : State).readyHead = some q ∧
      ({ active with requests := [q], replies := [⟨1, []⟩, ⟨2, []⟩] } : State).readyHead = none ∧
      ({ active with requests := [{ r with complete := false }] } : State).readyHead = none ∧
      (active.readyHead = none ∧ active.params.noticeDest = ⟨0, 0⟩) ∧
      6 ≤ ({ active with own := List.replicate 6 ownOf } : State).own.length ∧
      ∀ k, (({ active with slots := Vector.replicate 8 .idle } : State).slot k).isPending = false ∧
        (({ active with slots := Vector.replicate 8 .idle } : State).slot k).resendWaits = false := by
  refine ⟨by decide, by decide, by decide, by decide, by decide, by decide, by decide, by decide, fun k => ?_⟩
  cases k <;> decide

/-- The six clauses: 513, and 512 from an identity, at HOP_LIMIT, in REPEATER mode, as a request kept and refused. -/
theorem witness_HeaderVerdictBeforeTable :
    let v : Byte := 0
    let read (s : State) (f : RxFrame) : Prop := s.resetAsserted = false ∧ s.rx.state = .frame f ∧ f.count = 7
    let seven (h : Header) : RxFrame := ⟨7, 0, h.octets.take 7, none, []⟩
    let held (h : Header) : Header := Header.ofOctets 0 ((seven h).head ++ [v])
    let a := header peer ⟨12, 7⟩ 0x01 0 512
    let b := header peer peer 0x01 32 512
    let c := header peer peer 0x01 31 512
    let d := header ⟨12, 7⟩ peer 0x02 31 512
    let rep : State := { active with mode := .repeater, identity := #v[none, none, none, none] }
    let full : State := { active with requests := List.replicate 4 ⟨.loop peer, [], true⟩ }
    (read (atSeven (header peer peer 0x01 0 768) active) (seven (header peer peer 0x01 0 768)) ∧
        512 < (held (header peer peer 0x01 0 768)).declared) ∧
      (512 < (Header.ofOctets 0 ((seven (header peer peer 0x01 0 513)).head ++ [1])).declared) ∧
      (read (atSeven a active) (seven a) ∧ (held a).declared ≤ 512 ∧ active.mode = .service ∧
        some (held a).sa ∈ active.identity.toList) ∧
      (read (atSeven b active) (seven b) ∧ (held b).declared ≤ 512 ∧ some (held b).sa ∉ active.identity.toList ∧
        active.params.hopLimit ≤ (held b).tally.hops) ∧
      (read (atSeven c rep) (seven c) ∧ (held c).declared ≤ 512 ∧ rep.mode = .repeater ∧
        (held c).tally.hops < rep.params.hopLimit) ∧
      (read (atSeven d active) (seven d) ∧ (held d).declared ≤ 512 ∧ some (held d).sa ∉ active.identity.toList ∧
        (held d).tally.hops < active.params.hopLimit ∧ (held d).da = active.strapped ∧ (held d).kind = 0x02 ∧
        active.requests.length < 4) ∧
      (read (atSeven d full) (seven d) ∧ (held d).da = full.strapped ∧ (held d).kind = 0x02 ∧
        4 ≤ full.requests.length) := by decide

/-- A match at the last position, and no match. -/
theorem witness_HeaderVerdictByTable :
    let seven (h : Header) : RxFrame := ⟨7, 0, h.octets.take 7, none, []⟩
    let meets (h : Header) : Prop :=
      let s := atSeven h nine
      let x := Header.ofOctets 0 ((seven h).head ++ [0])
      s.resetAsserted = false ∧ s.rx.state = .frame (seven h) ∧ (seven h).count = 7 ∧ x.declared ≤ 512 ∧ s.mode = .service ∧
        some x.sa ∉ s.identity.toList ∧ x.tally.hops < s.params.hopLimit ∧ ¬ (x.da = s.strapped ∧ x.kind = 0x02)
    let a := header ⟨30, 9⟩ peer 0x01 31 512
    let b := header ⟨50, 50⟩ peer 0x01 0 0
    meets a ∧ meets b ∧
      ((nine.active.map (fun e => e.rule.key.admits a.da)) = [false, false, false, true, false]) ∧
      (∀ e ∈ nine.active, e.rule.key.admits b.da = false) := by decide

/-- The last info octet, both FCS octets, the excess octet. -/
theorem witness_OctetAfterHeader :
    let s (f : RxFrame) : State := { active with rx := ⟨.frame f, 0, []⟩ }
    (∀ f ∈ [frameAt 8 1, frameAt 9 1, frameAt 10 1, frameAt 11 1, frameAt 8 0, frameAt 10 0],
        (s f).resetAsserted = false ∧ (s f).rx.state = .frame f ∧ 8 ≤ f.count ∧ f.declared ≠ none) ∧
      ((frameAt 8 1).count < 8 + 1) ∧ (8 + 1 ≤ (frameAt 9 1).count ∧ (frameAt 10 1).count < 8 + 1 + 2) ∧
      ((frameAt 11 1).count = 8 + 1 + 2) ∧ (8 + 0 ≤ (frameAt 8 0).count ∧ (frameAt 10 0).count = 8 + 0 + 2) := by decide

theorem witness_FlagEndsFrame :
    let s : State := { active with rx := ⟨.frame (frameAt 10 0), 0, []⟩ }
    s.resetAsserted = false ∧ s.rx.state = .frame (frameAt 10 0) := by decide

/-- HUNT, FILL, and FRAME with one and with six header octets; a marker clear and set. -/
theorem witness_LoopLineBetweenFrames :
    let s (f : RxFrame) : State := { active with rx := ⟨.frame f, 0, []⟩ }
    active.resetAsserted = false ∧ active.rx.state = .hunt ∧
      ({ active with rx := ⟨.fill, 0, []⟩ } : State).rx.state = .fill ∧
      (∀ f ∈ [frameAt 1 0, frameAt 6 0], (s f).resetAsserted = false ∧ (s f).rx.state = .frame f ∧ f.count < 7) ∧
      (active.sup.line = .down ∧ active.sup.marker = false) ∧
      ({ active with sup := ⟨.down, 0, 0, true⟩ } : State).sup.marker = true := by decide

theorem witness_AbortAndIdle :
    let s : State := { active with rx := ⟨.frame (frameAt 1 0), 6, []⟩ }
    s.resetAsserted = false ∧ s.rx.state = .frame (frameAt 1 0) ∧ active.rx.state = .hunt := by decide

/-- 49 and 50 milliseconds after the last flag, and a DOWN line. -/
theorem witness_SilenceDeadline :
    let s (now : Word32) : State :=
      { active with timer := now, sup := ⟨.up, 100, 0, false⟩, rx := ⟨.frame (frameAt 1 0), 6, []⟩ }
    (s 149).resetAsserted = false ∧ ((s 149).timer - (s 149).sup.lastFlag).toNat < (s 149).params.lineSilence ∧
      active.sup.line = .down ∧ (s 150).sup.line = .up ∧
      (s 150).params.lineSilence ≤ ((s 150).timer - (s 150).sup.lastFlag).toNat ∧
      (s 150).rx.state = .frame (frameAt 1 0) := by decide

/-- No verdict; a COPY of an arriving frame; a MANAGE; a STRIP of a RETURNING entry; a DROP. -/
theorem witness_FrameEndClosesBlocks :
    let copy : VerdictRecord := ⟨.copy, some 1, some .mark, true, true, some .kept, some .claimed⟩
    let s : State :=
      { active with
        verdict := some copy, transit := [transitOf 8 .arriving .yes],
        delivery := [⟨11, header peer peer 1 3 2, [], 8, .arriving, false⟩] }
    let strip : State :=
      { active with
        verdict := some ⟨.strip, none, none, false, false, none, none⟩,
        log := [entryOf 1 ⟨9, 8⟩ .outstanding, entryOf 2 peer (.returning ⟨3, true, false⟩)] }
    active.verdict = none ∧ s.verdict = some copy ∧ s.transit = [] ++ [transitOf 8 .arriving .yes] ∧ copy.forward = true ∧
      (transitOf 8 .arriving .yes).status = .arriving ∧
      s.delivery = [] ++ [⟨11, header peer peer 1 3 2, [], 8, .arriving, false⟩] ∧ copy.verdict = .copy ∧
      copy.take = some .kept ∧
      strip.log = [entryOf 1 ⟨9, 8⟩ .outstanding] ++ entryOf 2 peer (.returning ⟨3, true, false⟩) :: [] ∧
      (∀ x ∈ [entryOf 1 ⟨9, 8⟩ .outstanding], x.state = .outstanding) ∧
      (entryOf 2 peer (.returning ⟨3, true, false⟩)).state = .returning ⟨3, true, false⟩ ∧
      (strip.verdict.map (fun r => r.forward) = some false) ∧ strip.delivery.getLast? = none ∧
      (∀ x ∈ s.log, x.state = .outstanding) := by decide

/-- The last entry and octet of each store, one too many of each, and a break. -/
theorem witness_ReservationsAtTheHeader :
    let t (k r : Nat) : List TransitEntry := List.replicate k ⟨r, header peer peer 1 1 (r - 8), [], 8, 8, 0, .good, .no⟩
    let d (k r : Nat) : List DeliveryEntry := List.replicate k ⟨r, header peer peer 1 1 (r - 9), [], 8, .good, false⟩
    ((t 5 240).length < 6 ∧ ((t 5 240).map (fun e => e.reservation)).sum + (8 + 72) ≤ 1280) ∧
      1280 < ((t 5 240).map (fun e => e.reservation)).sum + (8 + 73) ∧ 6 ≤ (t 6 8).length ∧
      (active.port = .active ∧ (d 11 180).length < 12 ∧
        ((d 11 180).map (fun e => e.reservation)).sum + (1 + 8 + 59) ≤ 2048) ∧
      2048 < ((d 11 180).map (fun e => e.reservation)).sum + (1 + 8 + 60) ∧ 12 ≤ (d 12 9).length ∧
      State.reset.port = .break := by decide

/-- Each candidate first, the fairness exception, and each gate shut. -/
theorem witness_InsertionOrder :
    let log (k : Nat) : List LogEntry := List.replicate k (entryOf 0 peer .outstanding)
    let u := frameOf .urgent
    let n := frameOf .normal
    let all : State := { active with own := [ownOf], urgent := [u], normal := [n], log := log 15, fairness := 3 }
    let exc : State := { all with fairness := 4 }
    let shut : State := { exc with log := log 15, reports := [completion] }
    (all.resetAsserted = false ∧ all.ltx = .idle ∧ all.transit = []) ∧
      (all.log.length < 16 ∧ all.own = [ownOf] ∧ ¬ (all.normal ≠ [] ∧ all.params.normalFair ≤ all.fairness)) ∧
      (all.budget < 16 ∧ ({ all with own := [] } : State).own = [] ∧ all.urgent = [u]) ∧
      (exc.normal ≠ [] ∧ exc.params.normalFair ≤ exc.fairness ∧ exc.normal = [n] ∧ exc.budget < 16) ∧
      (16 ≤ shut.budget ∧ shut.log.length < 16 ∧ shut.own = [ownOf]) ∧ 16 ≤ ({ all with log := log 16 } : State).log.length ∧
      (active.own = [] ∧ active.urgent = [] ∧ active.normal = []) := by decide

theorem witness_NextSequenceIsFirstFree :
    (List.replicate 15 (entryOf 255 peer .outstanding)).length < 16 ∧ ([] : List LogEntry).length < 16 := by decide

/-- A head with 24 and with 23 released octets under CUT_LEAD 24, a GOOD head, an ABANDONED head; a copy still arriving
with two octets to send, one short of them by its octet times and just past them, and a GOOD one; each state of the
transmitter. -/
theorem witness_TransmitterEvents :
    let idle (e : TransitEntry) : State := { active with transit := [e] }
    let s (e : TransitEntry) : State := { active with transit := [e], ltx := .forwarding }
    let head (released : Nat) : TransitEntry := { transitOf released .arriving .no with reservation := 100 }
    (active.resetAsserted = false ∧ active.ltx = .idle ∧ (idle (head 24)).transit = [head 24]) ∧
      ((head 24).sending = .no ∧ (idle (head 24)).params.cutLead ≤ (head 24).released) ∧
      ((head 23).status ≠ .good ∧ (head 23).released < (idle (head 23)).params.cutLead) ∧
      (transitOf 10 .good .no).status = .good ∧ (transitOf 8 .arriving .abandoned).sending ≠ .no ∧
      (∀ e ∈ [transitOf 8 .arriving .yes, { transitOf 8 .arriving .yes with sent := 8 }, transitOf 10 .good .yes],
        (s e).resetAsserted = false ∧ (s e).transit = [e] ∧ (s e).ltx = .forwarding ∧ e.sending = .yes) ∧
      (let e : TransitEntry := { transitOf 8 .arriving .yes with sent := 6 }
       e.status = .arriving ∧ e.sent + min 2 (e.released - e.sent) = e.released ∧
        e.sent + min 1 (e.released - e.sent) ≠ e.released) ∧
      ((transitOf 10 .good .yes).status = .good ∧ (transitOf 8 .arriving .abandoned).sending ≠ .yes) ∧
      (({ active with ltx := .inserting (.own ownOf) } : State).ltx = .inserting (.own ownOf) ∧
        ({ active with ltx := .inserting (.station (frameOf .urgent)) } : State).ltx =
          .inserting (.station (frameOf .urgent)) ∧
        ({ active with ltx := .aborting } : State).ltx = .aborting ∧ active.ltx ≠ .forwarding ∧ active.ltx ≠ .aborting) ∧
      (∀ f, active.ltx ≠ .inserting f) := by
  refine ⟨by decide, by decide, by decide, by decide, by decide, by decide, by decide, by decide, by decide, fun f h => ?_⟩
  cases h

theorem witness_StripMatchesOldest :
    let h := header peer ⟨12, 7⟩ 0x01 3 4
    let same (e : LogEntry) : Prop := e.da = h.da ∧ e.sa = h.sa ∧ e.kind = h.kind ∧ e.declared = h.declared
    let log := [entryOf 1 ⟨9, 8⟩ .outstanding, entryOf 2 peer .outstanding, entryOf 3 peer .outstanding]
    (∀ e ∈ active.log, ¬ same e) ∧
      log = [entryOf 1 ⟨9, 8⟩ .outstanding] ++ entryOf 2 peer .outstanding :: [entryOf 3 peer .outstanding] ∧
      (∀ x ∈ [entryOf 1 ⟨9, 8⟩ .outstanding], ¬ same x) ∧ same (entryOf 2 peer .outstanding) := by decide

/-- RETURN_TIMEOUT 20: one entry away 20 ms, one 19. -/
theorem witness_ReturnExpiryClosesOldest :
    let a := entryOf 1 peer .outstanding
    let b := { entryOf 2 peer .outstanding with insertedAt := 1 }
    let s : State := { active with timer := 20, log := [a, entryOf 0 peer (.returning ⟨1, false, false⟩), b] }
    s.resetAsserted = false ∧ s.log.filter (fun e => decide (e.state = .outstanding)) = [a] ++ [b] ∧
      (∀ e ∈ [a], s.params.returnTimeout ≤ (s.timer - e.insertedAt).toNat) ∧
      (s.timer - b.insertedAt).toNat < s.params.returnTimeout := by decide

/-- A zero run that reaches 32 before a one, and one of 31; HUNT and FILL, a BREAK with nothing reported, an ACTIVE port. -/
theorem witness_BreakBeginsAndEnds :
    let s (zeros : Nat) : State := { active with srx := ⟨.hunt, 0, zeros, []⟩ }
    (active.resetAsserted = false ∧ (s 31).port = .active ∧ (s 31).srx.state = .hunt) ∧
      (32 ≤ zerosAfter (s 31).srx.zeroRun ([false, true].take 1) ∧
        ¬ ∃ k, 32 ≤ zerosAfter (s 30).srx.zeroRun ([false].take k)) ∧
      ({ active with srx := ⟨.fill, 0, 1, []⟩ } : State).srx.state ≠ .hunt ∧
      (State.reset.resetAsserted = false ∧ State.reset.port = .break ∧ State.reset.reports = [] ∧
        State.reset.statusHeld = false) :=
  ⟨by decide, ⟨by decide, fun h => absurd ((le_zeroPeak_iff _ _ _).2 h) (by decide)⟩, by decide, by decide⟩

/-- Seven and eight shared records, and a PORT STATUS that waits. -/
theorem witness_ReportQueueAdmits :
    let s (k : Nat) : State := { active with reports := completion :: List.replicate k refusal }
    let shared (s : State) : Nat := (s.reports.filter (fun r => !r.isCompletion)).length
    ((s 7).port = .active ∧ (s 7).statusHeld = false ∧ .portStatus none ∉ (s 7).reports ∧ shared (s 7) < 8) ∧
      ((s 8).port = .active ∧ .portStatus none ∉ (s 8).reports ∧ 8 ≤ shared (s 8)) ∧
      ({ s 8 with statusHeld := true } : State).statusHeld = true ∧ State.reset.port = .break := by decide

/-- A GOOD frame in each mode, of 513 and 512 octets declared, as a request with and without a place, and as a frame with and
without an identity and room. -/
theorem witness_StationFrameAcceptance :
    let f (h : Header) (count : Nat) : RxFrame := ⟨count, 0xFFFF, 0x85 :: h.octets, some h.declared, [0x00, 0x00]⟩
    let good (h : Header) (count : Nat) : Prop :=
      let s : State := { active with srx := ⟨.frame (f h count) [], 0, 1, []⟩ }
      s.resetAsserted = false ∧ s.srx.state = .frame (f h count) [] ∧ 11 ≤ (f h count).count ∧
        9 + (f h count).declared.getD 0 + 2 ≤ (f h count).count ∧ (f h count).check = [0, 0] ∧
        ~~~ ((0 : Byte) ++ (0 : Byte) : Word16) = (f h count).fcs
    let a := header peer ⟨12, 7⟩ 0x01 0 513
    let b := header ⟨12, 7⟩ peer 0x02 0 512
    let c := header peer ⟨12, 7⟩ 0x01 0 512
    let d := header peer peer 0x01 0 0
    let store : State := { active with urgent := List.replicate 7 { frameOf .urgent with declared := 356 } }
    (good a 524 ∧ 512 < (Header.ofOctets 1 (f a 524).head).declared ∧ active.mode = .service) ∧
      (good b 523 ∧ Header.ofOctets 1 (f b 523).head = b ∧ b.da = active.strapped ∧ b.kind = 0x02 ∧
        active.requests.length < 4) ∧
      (good c 523 ∧ Header.ofOctets 1 (f c 523).head = c ∧ some c.sa ∈ active.identity.toList ∧
        8 + c.declared ≤ 3072 - active.outboundReserved) ∧
      store.urgent.length < 8 ∧ 8 + 516 ≤ 3072 - store.outboundReserved ∧
      ¬ (8 + 517 ≤ 3072 - store.outboundReserved) ∧ (good d 11 ∧ some d.sa ∉ active.identity.toList) := by decide

theorem witness_StationFrameDiscarded :
    let s (f : RxFrame) : State := { active with srx := ⟨.frame f [], 0, 1, []⟩ }
    (∀ f ∈ [frameAt 10 0, frameAt 11 0], (s f).resetAsserted = false ∧ (s f).srx.state = .frame f []) ∧
      (frameAt 10 0).count < 11 ∧ [true] ≠ [] ∧
      ((⟨11, 0xFFFF, [], some 0, [0, 0]⟩ : RxFrame).fcsGood = true ∧ 11 ≤ (frameAt 11 0).count ∧
        9 + (frameAt 11 0).declared.getD 0 + 2 ≤ (frameAt 11 0).count) ∧
      (9 ≤ (frameAt 11 0).count ∧ (frameAt 11 0).count = 9 + (frameAt 11 0).declared.getD 0 + 2) ∧
      (frameAt 10 0).count ≠ 9 + (frameAt 10 0).declared.getD 0 + 2 := by decide

theorem witness_StationLineEvents :
    let s (f : RxFrame) : State := { active with srx := ⟨.frame f [], 0, 1, []⟩ }
    active.resetAsserted = false ∧ active.port = .active ∧ active.srx.state = .hunt ∧
      ({ active with srx := ⟨.fill, 0, 1, []⟩ } : State).srx.state = .fill ∧
      (32 ≤ zerosAfter 25 ((bitsBringing 0 (octetBits 0x80)).take 7) ∧
        ¬ ∃ k, 32 ≤ zerosAfter 24 ((bitsBringing 0 (octetBits 0x80)).take k)) ∧
      (∀ f ∈ [frameAt 7 0, frameAt 8 0, frameAt 9 1, frameAt 9 0, frameAt 11 0], (s f).srx.state = .frame f []) ∧
      (frameAt 7 0).count < 8 ∧ (frameAt 8 0).count = 8 ∧
      (9 ≤ (frameAt 9 1).count ∧ (frameAt 9 1).count < 9 + (frameAt 9 1).declared.getD 0) ∧
      (9 + (frameAt 9 0).declared.getD 0 ≤ (frameAt 9 0).count ∧ (frameAt 9 0).count < 9 + (frameAt 9 0).declared.getD 0 + 2) ∧
      (frameAt 11 0).count = 9 + (frameAt 11 0).declared.getD 0 + 2 := by
  refine ⟨by decide, by decide, by decide, by decide, ⟨by decide, fun h => absurd ((le_zeroPeak_iff _ _ _).2 h) (by decide)⟩,
    by decide, by decide, by decide, by decide, by decide, by decide⟩

theorem witness_PortTransmitterChoice :
    let e : DeliveryEntry := ⟨9, header peer peer 1 3 0, [], 8, .good, false⟩
    let s : State := { active with delivery := [e] }
    active.resetAsserted = false ∧ active.ptx = .idle ∧ ({ active with ptx := .aborting } : State).ptx ≠ .idle ∧
      ({ active with reports := [.portStatus none] } : State).reports = .portStatus none :: [] ∧
      (refusal ≠ .portStatus none) ∧ ({ active with replies := [⟨1, []⟩] } : State).replies ≠ [] ∧
      (s.reports = [] ∧ s.replies = [] ∧ s.delivery = [e] ∧ e.status = .good ∧ e.onPort = false) ∧
      ({ e with status := .arriving } : DeliveryEntry).status ≠ .good ∧ active.delivery = [] ∧
      ((∀ r ∈ [completion, refusal, .portStatus (some active.portStatus), .noticeCopy .orphan 1 (.address peer)],
          ({ active with ptx := .record, reports := [r] } : State).reports = r :: [] ∧ r ≠ .portStatus none) ∧
        ({ active with ptx := .reply, replies := [⟨1, [7]⟩] } : State).replies = ⟨1, [7]⟩ :: [] ∧
        ({ s with ptx := .delivery } : State).delivery = e :: []) := by decide

theorem witness_PortReportLeaves :
    let e : DeliveryEntry := ⟨9, header peer peer 1 3 0, [], 8, .good, true⟩
    let a : State := { active with ptx := .record, reports := List.replicate 8 refusal, statusHeld := true }
    let b : State := { active with ptx := .record, reports := [completion] }
    let c : State := { active with ptx := .reply, replies := [⟨1, []⟩] }
    let d : State := { active with ptx := .delivery, delivery := [e] }
    a.resetAsserted = false ∧ (a.ptx = .record ∧ a.reports = refusal :: List.replicate 7 refusal) ∧
      (b.reports = [completion] ∧ completion.isCompletion = true) ∧ (c.ptx = .reply ∧ c.replies = [⟨1, []⟩]) ∧
      (d.ptx = .delivery ∧ d.delivery = [e]) ∧ active.ptx = .idle ∧ ({ active with ptx := .aborting } : State).ptx = .aborting := by
  decide

theorem witness_RaiseActsOnItsSlot :
    let n : OutNotice := ⟨255, 255, 9, 1, none, .none⟩
    let s : State := { active with slots := active.slots.set 3 (.outstanding n) }
    active.slot .orphan = .idle ∧ active.slot .started = .pending 1 .powerOn ∧ s.slot .orphan = .outstanding n := by decide

/-- The part with NOTICE_DEST set, as the notice statements need it. -/
def noticing : State := { active with params := { active.params with noticeDest := peer } }

theorem witness_FirstSendIsHighest :
    let s : State := { noticing with own := List.replicate 5 ownOf }
    s.resetAsserted = false ∧ s.readyHead = none ∧ s.slot .started = .pending 1 .powerOn ∧
      (∀ j o x, s.slot j = .pending o x → (noticeCode j).val ≤ (noticeCode .started).val) ∧
      (∀ j n, s.slot j = .outstanding n → (noticeCode j).val < (noticeCode .started).val) ∧
      s.params.noticeDest ≠ ⟨0, 0⟩ ∧ s.own.length < 6 ∧ active.params.noticeDest = ⟨0, 0⟩ ∧
      6 ≤ ({ noticing with own := List.replicate 6 ownOf } : State).own.length ∧
      ({ noticing with requests := [⟨.loop peer, [7, 0x01], true⟩] } : State).readyHead ≠ none ∧
      (∀ k, (({ noticing with slots := Vector.replicate 8 .idle } : State).slot k).isPending = false) := by
  refine ⟨by decide, by decide, by decide, fun j o x h => ?_, fun j n h => ?_, by decide, by decide, by decide, by decide,
    by decide, fun k => ?_⟩
  · cases j <;> first | decide | exact absurd h (fun h => by injection h)
  · cases j <;> exact absurd h (fun h => by injection h)
  · cases k <;> decide

/-- The second clause, for an OUTSTANDING slot above every PENDING one. -/
theorem witness_FirstSendIsHighest_outstanding :
    let n : OutNotice := ⟨1, 0, 0, 1, some (0, 200), .none⟩
    let s : State := { noticing with slots := noticing.slots.set 7 (.outstanding n) }
    s.slot .lineDown = .outstanding n ∧ ∀ k, (s.slot k).isPending = true → (noticeCode k).val ≤ (noticeCode .lineDown).val := by
  refine ⟨by decide, fun k _ => ?_⟩
  cases k <;> decide

/-- Deadlines not reached by one millisecond and just reached; sends at and above NOTICE_RETRIES; a place and none; a higher
resend due in this millisecond, and five frames with a higher one waiting. -/
theorem witness_ResendOrAbandon :
    let n (sends : Nat) (d : Option (Word32 × Nat)) : OutNotice := ⟨1, 0, 0, sends, d, .none⟩
    let s (x : OutNotice) : State :=
      { noticing with slots := (Vector.replicate 8 .idle).set 3 (.outstanding x), timer := 200 }
    let w := s (n 3 none)
    let above (x : OutNotice) : State := { w with slots := w.slots.set 5 (.outstanding x), own := List.replicate 5 ownOf }
    (∀ x ∈ [n 3 (some (1, 200)), n 3 (some (0, 200)), n 4 (some (0, 200)), n 3 none],
        (s x).resetAsserted = false ∧ (s x).slot .orphan = .outstanding x) ∧
      (((200 : Word32) - 1).toNat < 200 ∧ 200 ≤ ((200 : Word32) - 0).toNat) ∧
      (3 ≤ noticing.params.noticeRetries ∧ noticing.params.noticeRetries < 4) ∧
      (w.params.noticeDest ≠ ⟨0, 0⟩ ∧ w.own.length < 6 ∧ w.readyHead = none ∧ w.sendable = none) ∧
      (¬ ∃ j, (noticeCode .orphan).val < (noticeCode j).val ∧ (w.slot j).resendWaits = true) ∧
      (¬ ∃ j m start interval, (noticeCode .orphan).val < (noticeCode j).val ∧ w.slot j = .outstanding m ∧
        m.deadline = some (start, interval) ∧ interval ≤ (w.timer - start).toNat ∧ m.sends ≤ w.params.noticeRetries) ∧
      6 ≤ ({ w with own := List.replicate 6 ownOf } : State).own.length ∧
      ((above (n 3 (some (0, 200)))).readyHead = none ∧
        (above (n 3 (some (0, 200)))).slot .underrun = .outstanding (n 3 (some (0, 200)))) ∧
      ((above (n 3 none)).own.length = 5 ∧ ((above (n 3 none)).slot .underrun).resendWaits = true) := by
  refine ⟨by decide, by decide, by decide, by decide, fun ⟨j, h, hw⟩ => ?_, fun ⟨j, m, _, _, h, hw, _⟩ => ?_, by decide,
    by decide, by decide⟩
  · cases j <;> revert h hw <;> decide
  · cases j <;> first | exact absurd h (by decide) | injection hw

/-! The hypothesis of the request statements: a ready head with a command and its operands. -/

theorem serves_asked (tag code : Byte) (operands : List Byte) :
    (asked (tag :: code :: operands)).Serves ⟨.loop peer, tag :: code :: operands, true⟩ code operands :=
  ⟨rfl, rfl, tag, rfl⟩

theorem serves_askedIn (staged : List StagedEntry) (tag code : Byte) (operands : List Byte) :
    (askedIn staged (tag :: code :: operands)).Serves ⟨.loop peer, tag :: code :: operands, true⟩ code operands :=
  ⟨rfl, rfl, tag, rfl⟩

/-- A staged entry for each of `k` keys. -/
def stagedOf (k : Nat) : List StagedEntry :=
  (List.range k).map (fun i => ⟨⟨⟨some 12, 0, BitVec.ofNat 8 i⟩, .copy, .mark, 1⟩, none⟩)

theorem witness_RefusedCommandOnlyReplies :
    (asked [7, 0x05, 0, 1, 1, 1]).Serves ⟨.loop peer, [7, 0x05, 0, 1, 1, 1], true⟩ 0x05 [0, 1, 1, 1] ∧
      ([0, 1, 1, 1] : List Byte).length < 5 ∧
      (let s : State := { asked [7, 0x14] with managers := #v[some ⟨8, 8⟩, none, none, none] }
       s.Serves ⟨.loop peer, [7, 0x14], true⟩ 0x14 [] ∧ s.authorized (.loop peer) = false) ∧
      ((asked [7, 0x14]).authorized (.loop peer) = true ∧ (asked [7, 0x14]).session = none) ∧
      (let s : State := { asked [7, 0x14] with session := some ⟨.station, [], 0⟩ }
       s.session = some ⟨.station, [], 0⟩ ∧ Owner.station ≠ (Requester.loop peer).owner) ∧
      active.readyHead = none :=
  ⟨serves_asked _ _ _, by decide, ⟨⟨rfl, rfl, 7, rfl⟩, by decide⟩, by decide, by decide, by decide⟩

theorem witness_BadCommandAndReply :
    let r : Request := ⟨.loop peer, [7], true⟩
    let q : Request := ⟨.station 3, [7, 0x08], true⟩
    (asked [7]).resetAsserted = false ∧ (asked [7]).readyHead = some r ∧ r.octets.length < 2 ∧ r.source = .loop peer ∧
      (({ active with requests := [q] } : State).readyHead = some q ∧ q.octets = 7 :: 0x08 :: [] ∧
        q.source = .station 3) := by
  decide

theorem witness_StatusReportsThePart :
    (let s : State := { active with ltx := .inserting (.station (frameOf .urgent)) }
     s.ltx = .inserting (.station (frameOf .urgent)) ∧ s.resetAsserted = false) ∧
      (asked [7, 0x01]).Serves ⟨.loop peer, [7, 0x01], true⟩ 0x01 [] := ⟨by decide, serves_asked _ _ _⟩

/-- The last code, ALL, and the codes just outside. -/
theorem witness_ParamReadAnswersValues :
    (asked [7, 0x02, 11]).Serves ⟨.loop peer, [7, 0x02, 11], true⟩ 0x02 [11] ∧
      (asked [7, 0x02, 0xFF]).Serves ⟨.loop peer, [7, 0x02, 0xFF], true⟩ 0x02 [0xFF] ∧
      (11 < (12 : Byte).toNat ∧ (12 : Byte) ≠ 0xFF ∧ 11 < (254 : Byte).toNat) :=
  ⟨serves_asked _ _ _, serves_asked _ _ _, by decide⟩

/-- HOP_LIMIT at 63 and 64, and a code outside. -/
theorem witness_ParamWriteTakesValue :
    (asked [7, 0x03, 1, 0, 63]).Serves ⟨.loop peer, [7, 0x03, 1, 0, 63], true⟩ 0x03 [1, 0, 63] ∧
      (asked [7, 0x03, 1, 0, 63]).authorized (.loop peer) = true ∧
      (2 ≤ 63 ∧ 63 ≤ 63) ∧ ¬ (2 ≤ 64 ∧ 64 ≤ 63) ∧ 11 < (12 : Byte).toNat :=
  ⟨serves_asked _ _ _, by decide, by decide, by decide, by decide⟩

theorem witness_ListReadAnswersEntries :
    (asked [7, 0x04, 1]).Serves ⟨.loop peer, [7, 0x04, 1], true⟩ 0x04 [1] ∧ 1 < (2 : Byte).toNat :=
  ⟨serves_asked _ _ _, by decide⟩

/-- Entry 3 of the identity list set to a free address, to one held, and given up while in use; entry 0; bad operands. -/
theorem witness_ListWriteChecksAndSets :
    let s := asked [7, 0x05, 0, 3, 1, 12, 9]
    let used : State :=
      { s with identity := #v[some ⟨12, 7⟩, none, none, some ⟨12, 8⟩], urgent := [{ frameOf .urgent with sa := ⟨12, 8⟩ }] }
    s.Serves ⟨.loop peer, [7, 0x05, 0, 3, 1, 12, 9], true⟩ 0x05 [0, 3, 1, 12, 9] ∧ s.authorized (.loop peer) = true ∧
      ((3 : Byte).toNat = (3 : Fin 4).val ∧ (1 : Byte).toNat ≤ 1 ∧ (3 : Fin 4) ≠ 0) ∧
      (¬ ∃ j : Fin 4, j ≠ 3 ∧ s.identity.get j = some ⟨12, 9⟩) ∧ (∃ j : Fin 4, j ≠ 3 ∧ s.identity.get j = some ⟨12, 7⟩) ∧
      (used.identity.get 3 = some ⟨12, 8⟩ ∧ ∃ f ∈ used.urgent, f.sa = ⟨12, 8⟩) ∧
      (1 < (2 : Byte).toNat ∧ 3 < (4 : Byte).toNat) :=
  ⟨serves_asked _ _ _, by decide, by decide, by decide, by decide, by decide, by decide⟩

/-- Positions and counts at and beyond their ends, both tables, and no session. -/
theorem witness_TableReadAnswersEntries :
    let s := askedIn (stagedOf 2) [7, 0x06, 1, 2, 32]
    let bad (t first count : Byte) : Prop := 1 < t.toNat ∨ 48 < first.toNat ∨ count.toNat < 1 ∨ 32 < count.toNat
    s.Serves ⟨.loop peer, [7, 0x06, 1, 2, 32], true⟩ 0x06 [1, 2, 32] ∧ ¬ bad 1 2 32 ∧ ¬ bad 0 48 1 ∧ bad 2 0 1 ∧ bad 0 49 1 ∧
      bad 0 0 0 ∧ bad 0 0 33 ∧ s.session = some ⟨.loop peer, stagedOf 2, 0⟩ ∧ (2 : Byte).toNat ≤ (stagedOf 2).length ∧
      (stagedOf 2).length < (3 : Byte).toNat ∧ active.session = none ∧ active.active.length < (1 : Byte).toNat :=
  ⟨serves_askedIn _ _ _ _, by decide, by decide, by decide, by decide, by decide, by decide, by decide, by decide, by decide,
    by decide, by decide⟩

/-- The whole bank, one counter too many, and a clear without authority. -/
theorem witness_CountersReadAndClear :
    let s := asked [7, 0x07, 0, 16, 1]
    let fits (first count : Byte) : Prop :=
      first.toNat ≤ 15 ∧ 1 ≤ count.toNat ∧ count.toNat ≤ 16 ∧ first.toNat + count.toNat ≤ 16
    s.Serves ⟨.loop peer, [7, 0x07, 0, 16, 1], true⟩ 0x07 [0, 16, 1] ∧ s.authorized (.loop peer) = true ∧ fits 0 16 ∧
      fits 15 1 ∧ ¬ fits 1 16 ∧ ¬ fits 15 2 ∧ ¬ fits 0 0 ∧ ((1 : Byte).getLsbD 0 = true ∧ (0 : Byte).getLsbD 0 = false) ∧
      ({ s with managers := #v[some ⟨8, 8⟩, none, none, none] } : State).authorized (.loop peer) = false :=
  ⟨serves_asked _ _ _, by decide, by decide, by decide, by decide, by decide, by decide, by decide, by decide⟩

theorem witness_SessionOpenAndDiscard :
    (asked [7, 0x10]).Serves ⟨.loop peer, [7, 0x10], true⟩ 0x10 [] ∧ (asked [7, 0x10]).authorized (.loop peer) = true ∧
      (asked [7, 0x10]).session = none ∧
      (askedIn [] [7, 0x15]).Serves ⟨.loop peer, [7, 0x15], true⟩ 0x15 [] ∧
      (askedIn [] [7, 0x15]).session = some ⟨.loop peer, [], 0⟩ ∧ Owner.station ≠ .loop peer :=
  ⟨serves_asked _ _ _, by decide, by decide, serves_askedIn _ _ _ _, by decide, by decide⟩

/-- 47 entries and 48, the end position and one beyond, a new key and a held one, each operand out of range. -/
theorem witness_EntryInsertPlacesEntry :
    let o : List Byte := [47, 0, 12, 0, 47, 1, 1, 9, 0, 0]
    let rule : Rule := ⟨⟨some 12, 0, 47⟩, .copy, .mark, 9⟩
    (askedIn (stagedOf 47) (7 :: 0x11 :: o)).Serves ⟨.loop peer, 7 :: 0x11 :: o, true⟩ 0x11 o ∧
      (askedIn (stagedOf 47) (7 :: 0x11 :: o)).authorized (.loop peer) = true ∧
      ((stagedOf 47).length < 48 ∧ (47 : Byte).toNat ≤ (stagedOf 47).length ∧ (stagedOf 47).length < (48 : Byte).toNat) ∧
      48 ≤ (stagedOf 48).length ∧ (0 : Byte) = (if rule.key.group = none then 1 else 0) ∧
      (rule.action = .copy ∧ rule.policy = .mark) ∧ (∀ e ∈ stagedOf 47, e.rule.key ≠ rule.key) ∧
      (∃ e ∈ stagedOf 48, e.rule.key = rule.key) ∧
      (1 < (2 : Byte).toNat ∧ 2 < (3 : Byte).toNat ∧ (3 : Byte).toNat < (4 : Byte).toNat) :=
  ⟨serves_askedIn _ _ _ _, by decide, by decide, by decide, by decide, by decide, by decide, by decide, by decide⟩

theorem witness_EntryReplaceAndRemove :
    let o : List Byte := [1, 0, 12, 0, 1, 1, 1, 9, 0, 0]
    let s := askedIn (stagedOf 2) (7 :: 0x12 :: o)
    s.Serves ⟨.loop peer, 7 :: 0x12 :: o, true⟩ 0x12 o ∧ s.authorized (.loop peer) = true ∧
      s.session = some ⟨.loop peer, stagedOf 2, 0⟩ ∧
      (askedIn (stagedOf 2) [7, 0x13, 1]).Serves ⟨.loop peer, [7, 0x13, 1], true⟩ 0x13 [1] ∧
      ((1 : Byte).toNat < (stagedOf 2).length ∧ (stagedOf 2).length ≤ (2 : Byte).toNat) ∧
      (∀ e ∈ (stagedOf 2).eraseIdx 1, e.rule.key ≠ ⟨some 12, 0, 1⟩) ∧
      (∃ e ∈ (stagedOf 2).eraseIdx 1, e.rule.key = ⟨some 12, 0, 0⟩) :=
  ⟨serves_askedIn _ _ _ _, by decide, by decide, serves_askedIn _ _ _ _, by decide, by decide, by decide⟩

theorem witness_CommitInstallsStagedTable :
    (askedIn (stagedOf 2) [7, 0x14]).Serves ⟨.loop peer, [7, 0x14], true⟩ 0x14 [] ∧
      (askedIn (stagedOf 2) [7, 0x14]).authorized (.loop peer) = true ∧
      (askedIn (stagedOf 2) [7, 0x14]).session = some ⟨.loop peer, stagedOf 2, 0⟩ ∧
      Owner.loop peer = (Requester.loop peer).owner :=
  ⟨serves_askedIn _ _ _ _, by decide, by decide, by decide⟩

/-- SESSION_TIMEOUT 5000: 4999 and 5000 milliseconds after the owner's command. -/
theorem witness_SessionExpires :
    let s (now : Word32) : State := { active with session := some ⟨.station, [], 0⟩, timer := now }
    (s 4999).resetAsserted = false ∧ active.session = none ∧ (s 4999).session = some ⟨.station, [], 0⟩ ∧
      ((s 4999).timer - 0).toNat < (s 4999).params.sessionTimeout ∧
      (s 5000).params.sessionTimeout ≤ ((s 5000).timer - 0).toNat := by decide

theorem witness_NoticeAckClosesSlot :
    let n (since : Nat) : OutNotice := ⟨4, since, 9, 1, none, .address peer⟩
    let s (x : Slot) : State := { asked [7, 0x20, 7, 9] with slots := active.slots.set 7 x }
    (∀ x ∈ [Slot.idle, .pending 1 .none, .outstanding (n 0), .outstanding (n 1)],
        (s x).resetAsserted = false ∧ (s x).readyHead = some ⟨.loop peer, [7, 0x20, 7, 9], true⟩ ∧
          (s x).authorized (.loop peer) = true ∧ (s x).slot .lineDown = x) ∧
      (7 : Byte).toNat = (noticeCode .lineDown).val ∧ 7 < (8 : Byte).toNat ∧ (n 0).seq = 9 ∧ (n 0).seq ≠ 8 := by decide

theorem witness_RestartEmptiesTraffic :
    (asked [7, 0x30]).Serves ⟨.loop peer, [7, 0x30], true⟩ 0x30 [] ∧ (asked [7, 0x30]).authorized (.loop peer) = true :=
  ⟨serves_asked _ _ _, by decide⟩

/-- A frame passed at its header: the new entry is there. -/
theorem witness_ForwardingLaw :
    let s := atSeven (header ⟨50, 50⟩ ⟨9, 9⟩ 1 31 0) nine
    IdentityFixed s ∧ next? (.loopOctet 0) s = some (after (.loopOctet 0) s) ∧ (after (.loopOctet 0) s).transit ≠ [] := by
  decide

theorem witness_ConfigurationChangesOnlyByItsCommand :
    next? .paramRead (asked [7, 0x02, 1]) = some (after .paramRead (asked [7, 0x02, 1])) ∧
      (∀ g m, Instr.paramRead ≠ .powerOnReset g m) ∧ Instr.paramRead ≠ .powerOnResetAssert :=
  ⟨by decide, fun _ _ h => (by cases h), by decide⟩

/-- A part in traffic: a frame arriving under COPY, a frame inserted, a session open, records waiting. -/
def busy : State :=
  { nine with
    rx := ⟨.frame ⟨8, 0, (header ⟨12, 7⟩ ⟨3, 1⟩ 1 4 2).octets, some 2, []⟩, 0, []⟩
    verdict := some ⟨.copy, some 1, some .mark, true, true, some .kept, some .claimed⟩
    transit := [⟨10, ⟨⟨12, 7⟩, ⟨3, 1⟩, 1, ⟨5, true, false⟩, 2⟩, [], 8, 8, 0, .arriving, .no⟩]
    delivery := [⟨11, header ⟨12, 7⟩ ⟨3, 1⟩ 1 4 2, [], 8, .arriving, false⟩]
    log := [entryOf 0 peer .outstanding], logSeq := 1, urgent := [frameOf .urgent], own := [ownOf]
    session := some ⟨.loop peer, stagedOf 2, 0⟩, reports := [refusal, .portStatus none]
    pending := [.loopOctet 0xAA] }

/-- The part of a break, for the statement about BREAK. -/
def quiet : State := { State.reset with pending := [.portBreakEnd] }

/-- A part strapped to a reserved value. -/
def repeater : State := { State.powerOn 12 255 with pending := [.stationOctet 1] }

theorem witness_StepKeepsStoresBounded : StoresBounded busy ∧ ∃ t, step busy = .next t := ⟨by decide, _, rfl⟩

theorem witness_StepKeepsLogAndReportsBounded : (LogBounded busy ∧ ReportsBounded busy) ∧ ∃ t, step busy = .next t :=
  ⟨by decide, _, rfl⟩

theorem witness_StepKeepsTablesSound : TablesSound busy ∧ ∃ t, step busy = .next t := ⟨by decide, _, rfl⟩

theorem witness_StepKeepsModeAndLists :
    (ListsSound busy ∧ RepeaterQuiet busy) ∧ (∃ t, step busy = .next t) ∧ repeater.mode = .repeater ∧
      (ListsSound repeater ∧ RepeaterQuiet repeater) ∧ ∃ t, step repeater = .next t :=
  ⟨⟨⟨by decide, by decide, by decide⟩, fun h => absurd h (by decide)⟩, ⟨_, rfl⟩, by decide,
    ⟨⟨by decide, by decide, by decide⟩, fun _ =>
      ⟨rfl, rfl, rfl, rfl, rfl, rfl, rfl, rfl, rfl, rfl, rfl, by decide, by decide, rfl, rfl, rfl, rfl, rfl, by decide⟩⟩,
    _, rfl⟩

theorem witness_StepKeepsBreakQuiet :
    (BreakQuiet quiet ∧ ZeroRunShort quiet) ∧ quiet.port = .break ∧ (∃ t, step quiet = .next t) ∧
      (let s : State := { busy with srx := ⟨.hunt, 0, 31, []⟩ }
       (BreakQuiet s ∧ ZeroRunShort s) ∧ s.port = .active ∧ ∃ t, step s = .next t) :=
  ⟨by decide, by decide, ⟨_, rfl⟩, by decide, by decide, _, rfl⟩

/-- A part in traffic, and one whose waiting resend a higher OUTSTANDING notice holds back. -/
theorem witness_StepKeepsSettled :
    (Settled busy ∧ ∃ t, step busy = .next t) ∧
      (let n (d : Option (Word32 × Nat)) : OutNotice := ⟨1, 0, 0, 1, d, .none⟩
       let s : State :=
         { noticing with
           slots := ((Vector.replicate 8 .idle).set 3 (.outstanding (n none))).set 5 (.outstanding (n (some (0, 200))))
           timer := 200, pending := [.noticeRetryDeadline .underrun] }
       Settled s ∧ ∃ t, step s = .next t) := by
  refine ⟨⟨⟨by decide, by decide, fun h => absurd h (by decide)⟩, _, rfl⟩, ⟨by decide, by decide, fun _ _ k hk => ?_⟩, _, rfl⟩
  cases k <;> first | exact absurd hk (by decide) | exact ⟨.underrun, by decide, by decide, by decide⟩

theorem witness_StepKeepsFiguresInRange : FiguresInRange busy ∧ ∃ t, step busy = .next t := ⟨by decide, _, rfl⟩

theorem witness_StepKeepsFrameSound : FrameSound busy ∧ ∃ t, step busy = .next t :=
  ⟨⟨by decide, ⟨by decide, by decide, by decide, by decide, by decide⟩,
    ⟨by decide, by decide, by decide, by decide, by decide, by decide⟩, by decide⟩, _, rfl⟩

end Sys2Proof.Tests
end

section
/-! SUPPORT. A frame's end, block by block: what each block's part of it is, and the whole frame end with every field
written out. -/

namespace Sys2Proof.Machine

theorem EndCond.isGood_iff (c : EndCond) : c.isGood = true ↔ c = .good := decide_eq_true_iff

theorem EndCond.isGood_eq_false_iff (c : EndCond) : c.isGood = false ↔ c ≠ .good := decide_eq_false_iff_not

/-! ### The transit path (R52, R53, R54, R58) -/

theorem State.arrivingTransit_append {s : State} {older : List TransitEntry} {e : TransitEntry}
    (h : s.transit = older ++ [e]) : s.arrivingTransit = if e.status = .arriving then some e else none := by
  simp [State.arrivingTransit, h, TransitEntry.arriving, Option.filter]

/-- The newest entry's frame ends: GOOD keeps its entry unless it is ABANDONED, any other end removes it and aborts a
copy being sent. -/
theorem State.endTransit_of_arriving {s : State} {older : List TransitEntry} {e : TransitEntry}
    (h : s.transit = older ++ [e]) (ha : e.status = .arriving) (good : Bool) :
    s.endTransit good =
      { s with
        transit := if good = true ∧ e.sending ≠ .abandoned then older ++ [e.finish] else older
        ltx := if good = false ∧ e.sending = .yes then .aborting else s.ltx } := by
  have dropped : s.transit.dropLast = older := by rw [h, List.dropLast_concat]
  have finished : modifyLast TransitEntry.arriving TransitEntry.finish s.transit = older ++ [e.finish] := by
    rw [h, modifyLast_append]
    simp [TransitEntry.arriving, ha]
  unfold State.endTransit
  rw [State.arrivingTransit_append h, if_pos ha]
  cases hs : e.sending <;> cases good <;> simp [hs, dropped, finished]

theorem State.endTransit_of_none {s : State} (h : ∀ e, s.transit.getLast? = some e → e.status ≠ .arriving)
    (good : Bool) : s.endTransit good = s := by
  have none : s.arrivingTransit = none := by
    simpa [State.arrivingTransit, TransitEntry.arriving, Option.filter_eq_none_iff] using h
  unfold State.endTransit
  rw [none]

/-! ### The delivery store (R105, R106) -/

theorem State.arrivingDelivery_append {s : State} {older : List DeliveryEntry} {e : DeliveryEntry}
    (h : s.delivery = older ++ [e]) : s.arrivingDelivery = if e.status = .arriving then some e else none := by
  simp [State.arrivingDelivery, h, DeliveryEntry.arriving, Option.filter]

theorem State.endDelivery_of_arriving {s : State} {older : List DeliveryEntry} {e : DeliveryEntry}
    (h : s.delivery = older ++ [e]) (ha : e.status = .arriving) (good : Bool) :
    s.endDelivery good =
      { s with delivery := if good = true then older ++ [{ e with status := .good }] else older } := by
  unfold State.endDelivery
  rw [State.arrivingDelivery_append h, if_pos ha, h, modifyLast_append]
  cases good <;> simp [DeliveryEntry.arriving, ha]

theorem State.endDelivery_of_none {s : State} (h : ∀ e, s.delivery.getLast? = some e → e.status ≠ .arriving)
    (good : Bool) : s.endDelivery good = s := by
  have none : s.arrivingDelivery = none := by
    simpa [State.arrivingDelivery, DeliveryEntry.arriving, Option.filter_eq_none_iff] using h
  unfold State.endDelivery
  rw [none]

/-- The copy's end reads nothing of the transit path. -/
theorem State.endDelivery_of_frame (s : State) (transit : List TransitEntry) (ltx : LoopTx) (good : Bool) :
    ({ s with transit := transit, ltx := ltx } : State).endDelivery good =
      { s.endDelivery good with transit := transit, ltx := ltx } := by
  unfold State.endDelivery
  simp only [State.arrivingDelivery]
  split
  · rfl
  · cases good <;> rfl

/-! ### The request (R134) -/

theorem State.endRequest_requests (s : State) (good : Bool) :
    (s.endRequest good).requests =
      if good = true then s.requests.map (fun q => if q.collecting then { q with complete := true } else q)
      else s.requests.filter (fun q => !q.collecting) := by
  cases good <;> rfl

/-! ### The RETURNING entry (R89, R90) -/

theorem LogEntry.isOutstanding_eq_false_iff (e : LogEntry) :
    e.isOutstanding = false ↔ ∃ tally, e.state = .returning tally := by
  unfold LogEntry.isOutstanding
  cases e.state <;> simp

theorem LogEntry.isOutstanding_iff (e : LogEntry) : e.isOutstanding = true ↔ e.state = .outstanding :=
  decide_eq_true_iff

/-- The oldest RETURNING entry closes. -/
theorem State.endReturning_of_returning {s : State} {older newer : List LogEntry} {e : LogEntry}
    (h : s.log = older ++ e :: newer) (before : ∀ x ∈ older, x.isOutstanding = true) (he : e.isOutstanding = false)
    (good : Bool) :
    s.endReturning good =
      { (s.count .stripped).placeCompletions (closingOf good e.state) [e] with log := older ++ newer } := by
  have skips : older.find? (fun x => !x.isOutstanding) = none := by
    rw [List.find?_eq_none]
    intro x hx
    simp [before x hx]
  have first : s.log.find? (fun x => !x.isOutstanding) = some e := by
    simp [h, List.find?_append, skips, he]
  have rest : s.log.eraseP (fun x => !x.isOutstanding) = older ++ newer := by
    rw [h, List.eraseP_append_right _ (by intro x hx; simp [before x hx]), List.eraseP_cons_of_pos (by simp [he])]
  unfold State.endReturning
  rw [first]
  simp only [rest]

theorem State.endReturning_of_none {s : State} (h : ∀ x ∈ s.log, x.isOutstanding = true) (good : Bool) :
    s.endReturning good = s := by
  have none : s.log.find? (fun x => !x.isOutstanding) = none := by
    rw [List.find?_eq_none]
    intro x hx
    simp [h x hx]
  unfold State.endReturning
  rw [none]

/-- The entry's closing moves the log, the reports and the count of STRIPPED, whatever the other blocks hold. -/
theorem State.endReturning_of_frame (s : State) (transit : List TransitEntry) (ltx : LoopTx)
    (delivery : List DeliveryEntry) (requests : List Request) (good : Bool) :
    ({ s with transit := transit, ltx := ltx, delivery := delivery, requests := requests } : State).endReturning good =
      { s.endReturning good with transit := transit, ltx := ltx, delivery := delivery, requests := requests } := by
  unfold State.endReturning
  simp only
  split <;> rfl

/-! ### The frame end with every field written out (R9, R15, R40) -/

/-- The state after the blocks have closed their part, before the count of RX_BAD and the flag marker. -/
theorem State.endBlocks_eq {s : State} {r : VerdictRecord} (hv : s.verdict = some r) (good : Bool) :
    s.endBlocks good =
      { s with
        transit := if r.forward then (s.endTransit good).transit else s.transit
        ltx := if r.forward then (s.endTransit good).ltx else s.ltx
        delivery := if r.keepsCopy then (s.endDelivery good).delivery else s.delivery
        requests := if r.keepsRequest then (s.endRequest good).requests else s.requests
        log := if r.verdict = .strip then (s.endReturning good).log else s.log
        reports := if r.verdict = .strip then (s.endReturning good).reports else s.reports
        counters := if r.verdict = .strip then (s.endReturning good).counters else s.counters } := by
  have transit : ∀ s : State, (if r.forward then s.endTransit good else s) =
      { s with transit := if r.forward then (s.endTransit good).transit else s.transit
               ltx := if r.forward then (s.endTransit good).ltx else s.ltx } := by
    intro s
    obtain ⟨_, _, h⟩ := s.endTransit_frame good
    split <;> [rw [h]; rfl]
  have delivery : ∀ s : State, (if r.keepsCopy then s.endDelivery good else s) =
      { s with delivery := if r.keepsCopy then (s.endDelivery good).delivery else s.delivery } := by
    intro s
    obtain ⟨_, h⟩ := s.endDelivery_frame good
    split <;> [rw [h]; rfl]
  have requests : ∀ s : State, (if r.keepsRequest then s.endRequest good else s) =
      { s with requests := if r.keepsRequest then (s.endRequest good).requests else s.requests } := by
    intro s
    obtain ⟨_, h⟩ := s.endRequest_frame good
    split <;> [rw [h]; rfl]
  have log : ∀ s : State, (if r.verdict = .strip then s.endReturning good else s) =
      { s with log := if r.verdict = .strip then (s.endReturning good).log else s.log
               reports := if r.verdict = .strip then (s.endReturning good).reports else s.reports
               counters := if r.verdict = .strip then (s.endReturning good).counters else s.counters } := by
    intro s
    obtain ⟨_, _, _, h⟩ := s.endReturning_frame good
    split <;> [rw [h]; rfl]
  unfold State.endBlocks
  simp only [hv]
  rw [log, requests, delivery, transit]
  simp only [State.endDelivery_of_frame, State.endRequest_requests, State.endReturning_of_frame, ← hv]

/-- A frame end under a verdict. -/
theorem State.frameEnd_eq {s : State} {r : VerdictRecord} (hv : s.verdict = some r) (c : EndCond) :
    s.frameEnd c =
      { s with
        verdict := none
        transit := if r.forward then (s.endTransit c.isGood).transit else s.transit
        ltx := if r.forward then (s.endTransit c.isGood).ltx else s.ltx
        delivery := if r.keepsCopy then (s.endDelivery c.isGood).delivery else s.delivery
        requests := if r.keepsRequest then (s.endRequest c.isGood).requests else s.requests
        log := if r.verdict = .strip then (s.endReturning c.isGood).log else s.log
        reports := if r.verdict = .strip then (s.endReturning c.isGood).reports else s.reports
        counters := (s.frameEnd c).counters
        sup := { s.sup with marker := s.sup.marker && c.isGood } } := by
  unfold State.frameEnd
  simp only [State.endBlocks_eq hv]
  cases c.isGood <;> simp

/-- A frame end before the header is complete: no block holds a part of the frame. -/
theorem State.frameEnd_of_no_verdict {s : State} (hv : s.verdict = none) (c : EndCond) :
    s.frameEnd c = if c = .good then s else { s.count .rxBad with sup := { s.sup with marker := false } } := by
  have same : ({ s with verdict := none } : State) = s := by rw [← hv]
  have blocks : s.endBlocks c.isGood = s := by
    unfold State.endBlocks
    rw [hv]
  unfold State.frameEnd
  simp only [blocks, same, c.isGood_iff]

/-- A frame end releases the record. -/
theorem State.frameEnd_verdict (s : State) (c : EndCond) : (s.frameEnd c).verdict = none := by
  obtain ⟨_, _, _, _, _, _, _, h⟩ := s.frameEnd_frame c
  rw [h]

end Sys2Proof.Machine
end

section
/-! SUPPORT. What the blocks hold of the arriving frame, in the form in which an operation keeps it: queues of which
only the head is on the line, blocks at rest between frames, and the operations that leave all of it alone. -/

namespace Sys2Proof.Machine

/-! ### A queue of which only the head goes out -/

/-- Behind the head every element is `idle`, and the line sends from this queue exactly while the head is `busy`. -/
def HeadOnly {α : Type} (idle busy : α) (queue : List α) (line : Prop) : Prop :=
  (∀ x ∈ queue.tail, x = idle) ∧ (line ↔ queue.head? = some busy)

section
variable {α : Type} {idle busy a b : α} {queue : List α} {line other : Prop}

theorem HeadOnly.nil (h : ¬ line) : HeadOnly idle busy [] line := by simp [HeadOnly, h]

theorem HeadOnly.append_idle (ne : idle ≠ busy) (h : HeadOnly idle busy queue line) :
    HeadOnly idle busy (queue ++ [idle]) line := by
  cases queue with
  | nil => simp_all [HeadOnly]
  | cons b queue =>
    obtain ⟨tail, head⟩ := h
    refine ⟨fun x hx => ?_, head⟩
    rcases List.mem_append.1 hx with hx | hx
    · exact tail x hx
    · exact List.mem_singleton.1 hx

/-- The newest leaves; where it was on the line, it was the head, and the line ends it. -/
theorem HeadOnly.of_append (ne : idle ≠ busy) (h : HeadOnly idle busy (queue ++ [a]) line)
    (ended : other ↔ line ∧ a ≠ busy) : HeadOnly idle busy queue other := by
  cases queue with
  | nil => simp_all [HeadOnly]
  | cons b queue =>
    obtain ⟨tail, head⟩ := h
    have newest : a = idle := tail a (by simp)
    refine ⟨fun x hx => tail x (by simpa using .inl hx), ?_⟩
    rw [ended, head]
    simp [newest, ne]

/-- The head changes with the line. -/
theorem HeadOnly.cons (h : HeadOnly idle busy (a :: queue) line) (now : other ↔ b = busy) :
    HeadOnly idle busy (b :: queue) other := by
  simpa [HeadOnly, now] using h.1

/-- The head leaves and the line is free. -/
theorem HeadOnly.tail (ne : idle ≠ busy) (h : HeadOnly idle busy (a :: queue) line) (free : ¬ other) :
    HeadOnly idle busy queue other := by
  obtain ⟨tail, -⟩ := h
  cases queue with
  | nil => exact .nil free
  | cons b queue =>
    have idle_b : b = idle := tail b (by simp)
    refine ⟨fun x hx => tail x (by simpa using .inr hx), ?_⟩
    simp [free, idle_b, ne]

theorem HeadOnly.congr_line (h : HeadOnly idle busy queue line) (same : other ↔ line) :
    HeadOnly idle busy queue other := ⟨h.1, same.trans h.2⟩

end

/-! ### Blocks at rest: what they hold while no frame arrives -/

/-- Every copy is whole, and the transmitter forwards exactly while the head's copy is being sent. -/
abbrev TransitAtRest (transit : List TransitEntry) (ltx : LoopTx) : Prop :=
  (∀ e ∈ transit, e.Sound ∧ e.status = .good) ∧
    HeadOnly .no .yes (transit.map (fun e => e.sending)) (ltx = .forwarding)

/-- The figures of a delivery entry (R100, R101, R104, R105). -/
abbrev DeliveryEntry.Sound (e : DeliveryEntry) : Prop :=
  e.reservation = 9 + e.header.declared ∧ e.info.length + 8 = e.copied ∧ e.copied ≤ 8 + e.header.declared ∧
    e.status ≠ .bad ∧ (e.status = .good → e.copied = 8 + e.header.declared) ∧ (e.onPort = true → e.status = .good)

/-- Every delivery entry is whole, and what the station port sends is there. -/
abbrev DeliveryAtRest (delivery : List DeliveryEntry) (ptx : PortTx) : Prop :=
  (∀ e ∈ delivery, e.Sound ∧ e.status = .good) ∧
    HeadOnly false true (delivery.map (fun e => e.onPort)) (ptx = .delivery)

/-- No entry is RETURNING and every request is complete. -/
abbrev ArrivalsAtRest (log : List LogEntry) (requests : List Request) : Prop :=
  (∀ e ∈ log, e.isOutstanding = true) ∧ ∀ r ∈ requests, r.complete = true

/-- A record or REPLY being sent is there (R122, R126). -/
abbrev PortSends (s : State) : Prop := (s.ptx = .record → s.reports ≠ []) ∧ (s.ptx = .reply → s.replies ≠ [])

/-- Every block at rest. -/
abbrev BlocksAtRest (s : State) : Prop :=
  TransitAtRest s.transit s.ltx ∧ (DeliveryAtRest s.delivery s.ptx ∧ PortSends s) ∧ ArrivalsAtRest s.log s.requests

/-! ### The invariant's parts -/

/-- The receiver and the verdict stand for this entry's frame, and have brought what it holds. -/
abbrev TransitEntry.Tracks (e : TransitEntry) (s : State) : Prop :=
  s.verdict.map (fun r => r.forward) = some true ∧ (s.heldOf e.header.declared).isSome = true ∧
    (e.sending ≠ .abandoned → s.heldOf e.header.declared = some e.received)

/-- The same for a copy in the delivery store. -/
abbrev DeliveryEntry.Tracks (e : DeliveryEntry) (s : State) : Prop :=
  s.heldOf e.header.declared = some e.copied ∧ s.verdict.map (fun r => r.keepsCopy) = some true

theorem transitSound_iff (s : State) :
    TransitSound s ↔
      (∀ e ∈ s.transit, e.Sound) ∧ (∀ x ∈ (s.transit.map (fun e => e.status)).dropLast, x = .good) ∧
        HeadOnly .no .yes (s.transit.map (fun e => e.sending)) (s.ltx = .forwarding) ∧
        ∀ e ∈ s.transit, e.status = .arriving → e.Tracks s := by
  simp only [TransitSound, HeadOnly, List.head?_map, ← List.map_dropLast, ← List.map_tail, List.forall_mem_map,
    and_assoc]

theorem deliverySound_iff (s : State) :
    DeliverySound s ↔
      (∀ e ∈ s.delivery, e.Sound) ∧ (∀ x ∈ (s.delivery.map (fun e => e.status)).dropLast, x = .good) ∧
        HeadOnly false true (s.delivery.map (fun e => e.onPort)) (s.ptx = .delivery) ∧
        (∀ e ∈ s.delivery, e.status = .arriving → e.Tracks s) ∧ PortSends s := by
  simp only [DeliverySound, HeadOnly, List.head?_map, ← List.map_dropLast, ← List.map_tail, List.forall_mem_map]
  constructor
  · rintro ⟨entries, good, tail, line, port⟩
    refine ⟨fun e he => ?_, good, ⟨tail, line⟩, fun e he => ?_, port⟩
    · obtain ⟨h1, h2, h3, h4, h5, h6, -⟩ := entries e he
      exact ⟨h1, h2, h3, h4, h5, h6⟩
    · obtain ⟨-, -, -, -, -, -, h7⟩ := entries e he
      exact h7
  · rintro ⟨sound, good, ⟨tail, line⟩, tracks, port⟩
    refine ⟨fun e he => ?_, good, tail, line, port⟩
    obtain ⟨h1, h2, h3, h4, h5, h6⟩ := sound e he
    exact ⟨h1, h2, h3, h4, h5, h6, tracks e he⟩

theorem Request.collecting_eq_false {r : Request} (h : r.complete = true) : r.collecting = false := by
  simp [Request.collecting, h]

theorem Request.complete_of_not_collecting {r : Request} (h : r.collecting = false)
    (station : r.isLoop = false → r.complete = true) : r.complete = true := by
  cases hl : r.isLoop
  · exact station hl
  · simpa [Request.collecting, hl] using h

theorem EndStatus.eq_good {x : EndStatus} (ne_bad : x ≠ .bad) (ne_arriving : x ≠ .arriving) : x = .good := by
  cases x <;> simp_all

/-! ### From rest to the invariant and back -/

theorem TransitAtRest.transitSound {s : State} (h : TransitAtRest s.transit s.ltx) : TransitSound s := by
  obtain ⟨entries, line⟩ := h
  refine (transitSound_iff s).2 ⟨fun e he => (entries e he).1, fun x hx => ?_, line, fun e he ha => ?_⟩
  · obtain ⟨e, he, rfl⟩ := List.mem_map.1 (List.dropLast_subset _ hx)
    exact (entries e he).2
  · rw [(entries e he).2] at ha
    cases ha

theorem DeliveryAtRest.deliverySound {s : State} (h : DeliveryAtRest s.delivery s.ptx) (port : PortSends s) :
    DeliverySound s := by
  obtain ⟨entries, line⟩ := h
  refine (deliverySound_iff s).2 ⟨fun e he => (entries e he).1, fun x hx => ?_, line, fun e he ha => ?_, port⟩
  · obtain ⟨e, he, rfl⟩ := List.mem_map.1 (List.dropLast_subset _ hx)
    exact (entries e he).2
  · rw [(entries e he).2] at ha
    cases ha

theorem ArrivalsAtRest.arrivalsSound {s : State} (h : ArrivalsAtRest s.log s.requests) : ArrivalsSound s := by
  obtain ⟨log, requests⟩ := h
  have noReturning : s.log.filter (fun e => !e.isOutstanding) = [] := by
    rw [List.filter_eq_nil_iff]
    intro e he
    simp [log e he]
  have noCollecting : s.requests.filter (fun r => r.collecting) = [] := by
    rw [List.filter_eq_nil_iff]
    intro r hr
    simp [Request.collecting_eq_false (requests r hr)]
  refine ⟨by simp [noReturning], fun h => ?_, by simp [noCollecting], fun h => ?_, fun r hr _ => requests r hr⟩
  · obtain ⟨e, he, ho⟩ := List.any_eq_true.1 h
    simp [log e he] at ho
  · obtain ⟨r, hr, hc⟩ := List.any_eq_true.1 h
    simp [Request.collecting_eq_false (requests r hr)] at hc

/-- Blocks at rest agree with every receiver that has no header complete. -/
theorem BlocksAtRest.frameSound {s : State} (h : BlocksAtRest s) (tracks : s.verdictTracks = true) : FrameSound s := by
  obtain ⟨transit, ⟨delivery, port⟩, arrivals⟩ := h
  exact ⟨tracks, transit.transitSound, delivery.deliverySound port, arrivals.arrivalsSound⟩

/-- With no verdict standing nothing arrives. -/
theorem FrameSound.blocksAtRest {s : State} (h : FrameSound s) (hv : s.verdict = none) : BlocksAtRest s := by
  obtain ⟨-, transit, delivery, -, returning, -, collecting, stations⟩ := h
  obtain ⟨sound, -, line, tracks⟩ := (transitSound_iff s).1 transit
  obtain ⟨sound', -, line', tracks', port⟩ := (deliverySound_iff s).1 delivery
  refine ⟨⟨fun e he => ⟨sound e he, ?_⟩, line⟩, ⟨⟨fun e he => ⟨sound' e he, ?_⟩, line'⟩, port⟩, fun e he => ?_,
    fun r hr => ?_⟩
  · obtain ⟨-, -, -, -, -, notBad, -, -⟩ := sound e he
    refine EndStatus.eq_good notBad fun ha => ?_
    have := (tracks e he ha).1
    simp [hv] at this
  · obtain ⟨-, -, -, notBad, -, -⟩ := sound' e he
    refine EndStatus.eq_good notBad fun ha => ?_
    have := (tracks' e he ha).2
    simp [hv] at this
  · by_contra ho
    have := returning (List.any_eq_true.2 ⟨e, he, by simp [ho]⟩)
    simp [hv] at this
  · refine Request.complete_of_not_collecting ?_ (stations r hr)
    by_contra hc
    have := collecting (List.any_eq_true.2 ⟨r, hr, by simpa using hc⟩)
    simp [hv] at this

/-! ### Receivers with no header complete -/

theorem State.verdictTracks_of_no_frame {s : State} (hf : s.rx.state.frame? = none) (hv : s.verdict = none) :
    s.verdictTracks = true := by
  simp [State.verdictTracks, hf, hv]

theorem State.verdictTracks_of_frame {s : State} {f : RxFrame} (h : s.rx.state = .frame f) :
    s.verdictTracks = true ↔
      1 ≤ f.count ∧ s.verdict.isSome = decide (8 ≤ f.count) ∧ f.head.length = min f.count 8 ∧
        f.declared = if 8 ≤ f.count then some (declaredIn 0 f.head) else none := by
  simp only [State.verdictTracks, h, RxState.frame?, decide_eq_true_eq]

/-- With no frame in the receiver no verdict stands. -/
theorem FrameSound.verdict_of_no_frame {s : State} (h : FrameSound s) (hf : s.rx.state.frame? = none) :
    s.verdict = none := by
  have := h.1
  simpa [State.verdictTracks, hf] using this

/-! ### Operations that leave the arriving frame alone -/

/-- `t` holds of the arriving frame what `s` holds: receiver, verdict and the entries are the same, nothing more has
begun to return or to collect, and what the station port sends is still there. -/
structure State.KeepsFrame (s t : State) : Prop where
  rx : t.rx.state = s.rx.state
  verdict : t.verdict = s.verdict
  transit : t.transit = s.transit
  forwarding : t.ltx = .forwarding ↔ s.ltx = .forwarding
  delivery : t.delivery = s.delivery
  delivering : t.ptx = .delivery ↔ s.ptx = .delivery
  record : (s.ptx = .record → s.reports ≠ []) → t.ptx = .record → t.reports ≠ []
  reply : (s.ptx = .reply → s.replies ≠ []) → t.ptx = .reply → t.replies ≠ []
  returning : t.log.countP (fun e => !e.isOutstanding) ≤ s.log.countP (fun e => !e.isOutstanding)
  collecting : t.requests.countP (fun r => r.collecting) ≤ s.requests.countP (fun r => r.collecting)
  stations : (∀ r ∈ s.requests, r.isLoop = false → r.complete = true) →
    ∀ r ∈ t.requests, r.isLoop = false → r.complete = true

theorem State.KeepsFrame.refl (s : State) : s.KeepsFrame s :=
  ⟨rfl, rfl, rfl, .rfl, rfl, .rfl, id, id, Nat.le_refl _, Nat.le_refl _, id⟩

/-- All of the state that the agreement reads. -/
def State.framePart (s : State) :=
  (s.rx.state, s.verdict, s.transit, s.ltx, s.delivery, s.ptx, s.reports, s.replies, s.log, s.requests)

/-- An operation on the rest of the state leaves the arriving frame alone. -/
theorem State.KeepsFrame.of_framePart {s t : State} (h : t.framePart = s.framePart) : s.KeepsFrame t := by
  simp only [State.framePart, Prod.mk.injEq] at h
  obtain ⟨rx, verdict, transit, ltx, delivery, ptx, reports, replies, log, requests⟩ := h
  constructor <;> simp only [rx, verdict, transit, ltx, delivery, ptx, reports, replies, log, requests, Nat.le_refl] <;>
    exact id

theorem State.KeepsFrame.trans {s t u : State} (h : s.KeepsFrame t) (k : t.KeepsFrame u) : s.KeepsFrame u where
  rx := k.rx.trans h.rx
  verdict := k.verdict.trans h.verdict
  transit := k.transit.trans h.transit
  forwarding := k.forwarding.trans h.forwarding
  delivery := k.delivery.trans h.delivery
  delivering := k.delivering.trans h.delivering
  record := k.record ∘ h.record
  reply := k.reply ∘ h.reply
  returning := k.returning.trans h.returning
  collecting := k.collecting.trans h.collecting
  stations := k.stations ∘ h.stations

theorem State.heldOf_congr {s t : State} (h : t.rx.state = s.rx.state) (d : Nat) : t.heldOf d = s.heldOf d := by
  unfold State.heldOf
  rw [h]

theorem TransitEntry.Tracks.congr {s t : State} {e : TransitEntry} (h : e.Tracks s) (rx : t.rx.state = s.rx.state)
    (verdict : t.verdict = s.verdict) : e.Tracks t := by
  simpa only [TransitEntry.Tracks, State.heldOf_congr rx, verdict] using h

theorem DeliveryEntry.Tracks.congr {s t : State} {e : DeliveryEntry} (h : e.Tracks s) (rx : t.rx.state = s.rx.state)
    (verdict : t.verdict = s.verdict) : e.Tracks t := by
  simpa only [DeliveryEntry.Tracks, State.heldOf_congr rx, verdict] using h

theorem any_of_countP_le {α : Type} {p : α → Bool} {l m : List α} (h : l.countP p ≤ m.countP p) (hl : l.any p = true) :
    m.any p = true := by
  rw [List.any_eq_true, ← List.countP_pos_iff] at hl ⊢
  exact Nat.lt_of_lt_of_le hl h

theorem ArrivalsSound.of_fewer {s t : State} (h : ArrivalsSound s) (verdict : t.verdict = s.verdict)
    (returning : t.log.countP (fun e => !e.isOutstanding) ≤ s.log.countP (fun e => !e.isOutstanding))
    (collecting : t.requests.countP (fun r => r.collecting) ≤ s.requests.countP (fun r => r.collecting))
    (stations : ∀ r ∈ t.requests, r.isLoop = false → r.complete = true) : ArrivalsSound t := by
  obtain ⟨oneReturning, strip, oneCollecting, kept, -⟩ := h
  rw [← List.countP_eq_length_filter] at oneReturning oneCollecting
  refine ⟨?_, fun ha => ?_, ?_, fun ha => ?_, stations⟩
  · rw [← List.countP_eq_length_filter]
    exact returning.trans oneReturning
  · rw [verdict]
    exact strip (any_of_countP_le returning ha)
  · rw [← List.countP_eq_length_filter]
    exact collecting.trans oneCollecting
  · rw [verdict]
    exact kept (any_of_countP_le collecting ha)

theorem TransitSound.congr {s t : State} (h : TransitSound s) (rx : t.rx.state = s.rx.state)
    (verdict : t.verdict = s.verdict) (transit : t.transit = s.transit)
    (forwarding : t.ltx = .forwarding ↔ s.ltx = .forwarding) : TransitSound t := by
  obtain ⟨sound, good, line, tracks⟩ := (transitSound_iff s).1 h
  rw [transitSound_iff, transit]
  exact ⟨sound, good, line.congr_line forwarding, fun e he ha => (tracks e he ha).congr rx verdict⟩

theorem State.KeepsFrame.portSends {s t : State} (k : s.KeepsFrame t) (h : PortSends s) : PortSends t :=
  ⟨k.record h.1, k.reply h.2⟩

theorem State.KeepsFrame.deliverySound {s t : State} (k : s.KeepsFrame t) (h : DeliverySound s) : DeliverySound t := by
  obtain ⟨sound, good, line, tracks, port⟩ := (deliverySound_iff s).1 h
  rw [deliverySound_iff, k.delivery]
  exact ⟨sound, good, line.congr_line k.delivering, fun e he ha => (tracks e he ha).congr k.rx k.verdict,
    k.portSends port⟩

theorem State.KeepsFrame.arrivalsSound {s t : State} (k : s.KeepsFrame t) (h : ArrivalsSound s) : ArrivalsSound t := by
  refine h.of_fewer k.verdict k.returning k.collecting ?_
  obtain ⟨-, -, -, -, stations⟩ := h
  exact k.stations stations

/-- An operation that leaves the arriving frame alone keeps the agreement. -/
theorem State.KeepsFrame.frameSound {s t : State} (k : s.KeepsFrame t) (h : FrameSound s) : FrameSound t := by
  obtain ⟨tracked, transit, delivery, arrivals⟩ := h
  refine ⟨?_, transit.congr k.rx k.verdict k.transit k.forwarding, k.deliverySound delivery, k.arrivalsSound arrivals⟩
  simpa only [State.verdictTracks, k.rx, k.verdict] using tracked

/-- It keeps blocks at rest, too. -/
theorem State.KeepsFrame.blocksAtRest {s t : State} (k : s.KeepsFrame t) (h : BlocksAtRest s) : BlocksAtRest t := by
  obtain ⟨⟨copies, line⟩, ⟨⟨deliveries, line'⟩, port⟩, log, requests⟩ := h
  have noReturning : t.log.countP (fun e => !e.isOutstanding) = 0 :=
    Nat.le_zero.1 (k.returning.trans (List.countP_eq_zero.2 fun e he => by simp [log e he]).le)
  have noCollecting : t.requests.countP (fun r => r.collecting) = 0 :=
    Nat.le_zero.1 (k.collecting.trans
      (List.countP_eq_zero.2 fun r hr => by simp [Request.collecting_eq_false (requests r hr)]).le)
  refine ⟨⟨?_, ?_⟩, ⟨⟨?_, ?_⟩, k.portSends port⟩, fun e he => ?_, fun r hr => ?_⟩
  · rw [k.transit]
    exact copies
  · rw [k.transit]
    exact line.congr_line k.forwarding
  · rw [k.delivery]
    exact deliveries
  · rw [k.delivery]
    exact line'.congr_line k.delivering
  · simpa using List.countP_eq_zero.1 noReturning e he
  · exact Request.complete_of_not_collecting (by simpa using List.countP_eq_zero.1 noCollecting r hr)
      (k.stations (fun q hq _ => requests q hq) r hr)

end Sys2Proof.Machine
end

section
/-! SUPPORT. The operations that leave the arriving frame alone: counts, raises, reports, the return log's expiry,
requests carried out, the notice unit, insertion, the station port. -/

namespace Sys2Proof.Machine

/-! ### Counts, raises and reports -/

/-- A session is no part of a frame. -/
theorem State.keepsFrame_session (s : State) (x : Option Session) : s.KeepsFrame { s with session := x } :=
  .of_framePart rfl

theorem State.keepsFrame_countN (s : State) (c : Counter) (n : Nat) : s.KeepsFrame (s.countN c n) := .of_framePart rfl

theorem State.keepsFrame_count (s : State) (c : Counter) : s.KeepsFrame (s.count c) := .of_framePart rfl

theorem State.keepsFrame_raise (s : State) (k : NoticeKind) (d : Detail) : s.KeepsFrame (s.raise k d) :=
  { State.KeepsFrame.refl s with
    record := fun h hp => by simp [h hp] }

theorem State.keepsFrame_placeCompletions (s : State) (o : Closing) (es : List LogEntry) :
    s.KeepsFrame (s.placeCompletions o es) :=
  { State.KeepsFrame.refl s with
    record := fun h hp => by simp [h hp] }

theorem State.keepsFrame_closeLost (s : State) (es : List LogEntry) : s.KeepsFrame (s.closeLost es) :=
  (s.keepsFrame_countN _ _).trans (State.keepsFrame_placeCompletions _ _ _)

theorem State.keepsFrame_causeStatus (s : State) : s.KeepsFrame s.causeStatus := by
  unfold State.causeStatus
  split
  · split
    · exact { State.KeepsFrame.refl s with record := fun _ _ => by simp }
    · exact .of_framePart rfl
  · exact .refl s

theorem State.keepsFrame_discard (s : State) : s.KeepsFrame s.discard :=
  have counted : s.KeepsFrame { s.count .portDiscarded with discarded := saturate (s.discarded + 1) } :=
    .of_framePart rfl
  counted.trans (State.keepsFrame_causeStatus _)

theorem State.keepsFrame_refuse (s : State) (tag : Tag) (cls : StationClass) (reason : Reason) :
    s.KeepsFrame (s.refuse tag cls reason) := by
  unfold State.refuse
  split
  · exact { State.KeepsFrame.refl s with record := fun _ _ => by simp }
  · exact s.keepsFrame_discard

/-! ### The return log -/

/-- The entries that stay are as many RETURNING ones as before. -/
theorem splitExpired_returning (now : Word32) (timeout : Nat) (log : List LogEntry) :
    (splitExpired now timeout log).2.countP (fun e => !e.isOutstanding) = log.countP (fun e => !e.isOutstanding) := by
  induction log with
  | nil => rfl
  | cons e es ih =>
    unfold splitExpired
    by_cases ho : e.isOutstanding = true
    · by_cases hd : deadlineReached now e.insertedAt timeout = true
      · simp [ho, hd, ih]
      · simp [ho, hd]
    · simp [ho, ih]

theorem State.keepsFrame_expireLog (s : State) : s.KeepsFrame s.expireLog :=
  { State.KeepsFrame.refl s with
    record := fun h hp => by simp [State.expireLog, State.closeLost, h hp]
    returning := (splitExpired_returning _ _ _).le }

theorem State.keepsFrame_expireSession (s : State) : s.KeepsFrame s.expireSession := by
  unfold State.expireSession
  split
  · exact .refl s
  · split
    · exact (s.keepsFrame_session none).trans (State.keepsFrame_raise _ _ _)
    · exact .refl s

/-! ### Requests and notices -/

/-- The reply goes out and the head leaves. -/
theorem State.keepsFrame_reply (s : State) (r : Request) (a : Answer) : s.KeepsFrame (s.reply r a) := by
  have fewer : s.requests.tail.countP (fun r => r.collecting) ≤ s.requests.countP (fun r => r.collecting) :=
    (List.tail_sublist _).countP_le
  have stations : (∀ r ∈ s.requests, r.isLoop = false → r.complete = true) →
      ∀ r ∈ s.requests.tail, r.isLoop = false → r.complete = true := fun h r hr => h r (List.mem_of_mem_tail hr)
  unfold State.reply
  split
  · exact { State.KeepsFrame.refl s with collecting := fewer, stations := stations }
  · exact { State.KeepsFrame.refl s with reply := fun _ _ => by simp, collecting := fewer, stations := stations }

theorem State.keepsFrame_ifAuthorized {s : State} {who : Requester} {run : State × Answer}
    (h : s.KeepsFrame run.1) : s.KeepsFrame (s.ifAuthorized who run).1 := by
  unfold State.ifAuthorized
  split
  · exact h
  · exact .refl s

theorem State.keepsFrame_asOwner {s : State} {who : Requester} {run : Session → State → State × Answer}
    (h : ∀ (x : Session) (t : State), t.KeepsFrame (run x t).1) : s.KeepsFrame (s.asOwner who run).1 := by
  unfold State.asOwner
  apply State.keepsFrame_ifAuthorized
  split
  · exact .refl s
  · split
    · exact (s.keepsFrame_session _).trans (h _ _)
    · exact .refl s

/-- The commands that write a parameter or restart the part reach the loop receiver and the blocks; no other does. -/
def Command.reachesReceiver : Command → Bool
  | .paramWrite => true
  | .restart => true
  | _ => false

theorem State.keepsFrame_writeList (s : State) (l : ListName) (i : Fin 4) (new : Option Address) :
    s.KeepsFrame (s.writeList l i new).1 := by
  unfold State.writeList
  split <;> repeat' split
  all_goals exact .of_framePart rfl

/-- A counter bank is no part of a frame. -/
theorem State.keepsFrame_counters (s : State) (x : Vector Word32 16) : s.KeepsFrame { s with counters := x } :=
  .of_framePart rfl

theorem State.keepsFrame_readCounters (s : State) (first count : Nat) (clear : Bool) :
    s.KeepsFrame (s.readCounters first count clear).1 := by
  unfold State.readCounters
  split
  · cases clear with
    | false => exact .refl s
    | true => exact s.keepsFrame_counters _
  · exact .refl s

theorem State.keepsFrame_insertEntry (s : State) (x : Session) (position : Nat) (rule : Option Rule) :
    s.KeepsFrame (s.insertEntry x position rule).1 := by
  unfold State.insertEntry
  repeat' split
  all_goals exact .of_framePart rfl

theorem State.keepsFrame_replaceEntry (s : State) (x : Session) (position : Nat) (rule : Option Rule) :
    s.KeepsFrame (s.replaceEntry x position rule).1 := by
  unfold State.replaceEntry
  repeat' split
  all_goals exact .of_framePart rfl

theorem State.keepsFrame_removeEntry (s : State) (x : Session) (position : Nat) :
    s.KeepsFrame (s.removeEntry x position).1 := by
  unfold State.removeEntry
  split <;> exact .of_framePart rfl

theorem State.keepsFrame_ackNotice (s : State) (k : NoticeKind) (seq : Byte) :
    s.KeepsFrame (s.ackNotice k seq).1 := by
  unfold State.ackNotice
  repeat' split
  all_goals exact .of_framePart rfl

theorem State.keepsFrame_runOf {c : Command} (hc : c.reachesReceiver = false) (r : Request) (s : State) :
    s.KeepsFrame (State.runOf (some c) r s).1 := by
  cases c with
  | paramWrite => cases hc
  | restart => cases hc
  | status => exact .refl s
  | paramRead =>
    show s.KeepsFrame (State.runParamRead r s).1
    unfold State.runParamRead
    repeat' split
    all_goals exact .refl s
  | listRead =>
    show s.KeepsFrame (State.runListRead r s).1
    unfold State.runListRead
    repeat' split
    all_goals exact .refl s
  | listWrite =>
    show s.KeepsFrame (State.runListWrite r s).1
    unfold State.runListWrite
    split
    · apply State.keepsFrame_ifAuthorized
      split
      · exact s.keepsFrame_writeList _ _ _
      · exact .refl s
    · exact .refl s
  | tableRead =>
    show s.KeepsFrame (State.runTableRead r s).1
    unfold State.runTableRead
    repeat' split
    all_goals exact .refl s
  | countersRead =>
    show s.KeepsFrame (State.runCountersRead r s).1
    unfold State.runCountersRead
    split
    · split
      · exact State.keepsFrame_ifAuthorized (s.keepsFrame_readCounters _ _ _)
      · exact s.keepsFrame_readCounters _ _ _
    · exact .refl s
  | sessionOpen =>
    show s.KeepsFrame (State.runSessionOpen r s).1
    unfold State.runSessionOpen
    apply State.keepsFrame_ifAuthorized
    repeat' split
    all_goals exact .of_framePart rfl
  | entryInsert =>
    show s.KeepsFrame (State.runEntryInsert r s).1
    unfold State.runEntryInsert
    split
    · exact State.keepsFrame_asOwner fun x t => t.keepsFrame_insertEntry x _ _
    · exact .refl s
  | entryReplace =>
    show s.KeepsFrame (State.runEntryReplace r s).1
    unfold State.runEntryReplace
    split
    · exact State.keepsFrame_asOwner fun x t => t.keepsFrame_replaceEntry x _ _
    · exact .refl s
  | entryRemove =>
    show s.KeepsFrame (State.runEntryRemove r s).1
    unfold State.runEntryRemove
    split
    · exact State.keepsFrame_asOwner fun x t => t.keepsFrame_removeEntry x _
    · exact .refl s
  | sessionCommit => exact State.keepsFrame_asOwner fun _ _ => .of_framePart rfl
  | sessionDiscard => exact State.keepsFrame_asOwner fun _ _ => .of_framePart rfl
  | noticeAck =>
    show s.KeepsFrame (State.runNoticeAck r s).1
    unfold State.runNoticeAck
    split
    · apply State.keepsFrame_ifAuthorized
      split
      · exact s.keepsFrame_ackNotice _ _
      · exact .refl s
    · exact .refl s

theorem State.keepsFrame_placeNotices (s : State) : s.KeepsFrame s.placeNotices := by
  obtain ⟨_, _, _, h⟩ := s.placeNotices_frame
  rw [h]
  exact .of_framePart rfl

theorem State.keepsFrame_sendFirst (s : State) : s.KeepsFrame s.sendFirst := by
  obtain ⟨_, _, _, h⟩ := s.sendFirst_frame
  rw [h]
  exact .of_framePart rfl

theorem State.keepsFrame_resendWaiting (s : State) : s.KeepsFrame s.resendWaiting := by
  obtain ⟨_, _, h⟩ := s.resendWaiting_frame
  rw [h]
  exact .of_framePart rfl

theorem State.keepsFrame_retryDeadline (s : State) (k : NoticeKind) : s.KeepsFrame (s.retryDeadline k) := by
  obtain ⟨_, _, h⟩ := s.retryDeadline_frame k
  rw [h]
  exact .of_framePart rfl

/-! ### The supervisor -/

theorem State.keepsFrame_superviseFlag (s : State) (c : Option EndCond) : s.KeepsFrame (s.superviseFlag c) := by
  unfold State.superviseFlag
  dsimp only
  split
  · refine State.KeepsFrame.trans ?_ (State.keepsFrame_raise _ _ _)
    exact .of_framePart rfl
  · exact .of_framePart rfl

/-! ### Insertion and the transmitters' ends -/

theorem State.keepsFrame_causeIfWasFull (s : State) (before : Nat) : s.KeepsFrame (s.causeIfWasFull before) := by
  unfold State.causeIfWasFull
  split
  · exact s.keepsFrame_causeStatus
  · exact .refl s

/-- An insertion's new entry is OUTSTANDING. -/
theorem State.appendLog_returning (s : State) (o : Origin) (h : Header) :
    (s.appendLog o h).log.countP (fun e => !e.isOutstanding) = s.log.countP (fun e => !e.isOutstanding) := by
  have outstanding : (s.newEntry o h).isOutstanding = true := by simp [State.newEntry, LogEntry.isOutstanding]
  simp [List.countP_append, outstanding]

theorem State.keepsFrame_startOwn {s : State} (hi : s.ltx = .idle) (f : OwnFrame) (rest : List OwnFrame) :
    s.KeepsFrame (s.startOwn f rest) :=
  { State.KeepsFrame.refl s with
    forwarding := by simp [State.startOwn, hi]
    returning := (State.appendLog_returning _ _ _).le }

theorem State.keepsFrame_startUrgent {s : State} (hi : s.ltx = .idle) (f : StationFrame) (rest : List StationFrame) :
    s.KeepsFrame (s.startUrgent f rest) := by
  refine State.KeepsFrame.trans ?_ (State.keepsFrame_causeIfWasFull _ _)
  exact { State.KeepsFrame.refl s with forwarding := by simp [hi], returning := (State.appendLog_returning _ _ _).le }

theorem State.keepsFrame_startNormal {s : State} (hi : s.ltx = .idle) (f : StationFrame) (rest : List StationFrame) :
    s.KeepsFrame (s.startNormal f rest) := by
  refine State.KeepsFrame.trans ?_ (State.keepsFrame_causeIfWasFull _ _)
  exact { State.KeepsFrame.refl s with forwarding := by simp [hi], returning := (State.appendLog_returning _ _ _).le }

/-- Whatever candidate starts, its insertion leaves the arriving frame alone. -/
theorem State.keepsFrame_insert {s : State} (hi : s.ltx = .idle) : s.KeepsFrame s.insert := by
  have own : ∀ t, s.tryOwn = some t → s.KeepsFrame t := by
    intro t h
    unfold State.tryOwn at h
    split at h
    · split at h
      · obtain rfl := Option.some.inj h
        exact State.keepsFrame_startOwn hi _ _
      · cases h
    · cases h
  have urgent : ∀ t, s.tryUrgent = some t → s.KeepsFrame t := by
    intro t h
    unfold State.tryUrgent at h
    split at h
    · split at h
      · obtain rfl := Option.some.inj h
        exact State.keepsFrame_startUrgent hi _ _
      · cases h
    · cases h
  have normal : ∀ t, s.tryNormal = some t → s.KeepsFrame t := by
    intro t h
    unfold State.tryNormal at h
    split at h
    · split at h
      · obtain rfl := Option.some.inj h
        exact State.keepsFrame_startNormal hi _ _
      · cases h
    · cases h
  have either : ∀ {a b : Option State}, (∀ t, a = some t → s.KeepsFrame t) → (∀ t, b = some t → s.KeepsFrame t) →
      ∀ t, a.or b = some t → s.KeepsFrame t := by
    intro a b ha hb t h
    cases a with
    | none => exact hb t h
    | some x => exact ha t h
  have started : ∀ {a : Option State}, (∀ t, a = some t → s.KeepsFrame t) → s.KeepsFrame (a.getD s) := by
    intro a h
    cases a with
    | none => exact .refl s
    | some t => exact h t rfl
  unfold State.insert
  split
  · exact started (either (either normal own) urgent)
  · exact started (either (either own urgent) normal)

theorem State.keepsFrame_endInsertion (s : State) : s.KeepsFrame s.endInsertion := by
  unfold State.endInsertion
  split
  · rename_i h
    exact { State.KeepsFrame.refl s with forwarding := by simp [h] }
  · exact .refl s

theorem State.keepsFrame_completeAbort (s : State) : s.KeepsFrame s.completeAbort := by
  unfold State.completeAbort
  split
  · rename_i h
    exact { State.KeepsFrame.refl s with forwarding := by simp [h] }
  · exact .refl s

/-! ### The station port -/

/-- Another framing state or run of the station receiver is none of the loop's. -/
theorem State.keepsFrame_srx (s : State) (x : StationRx) : s.KeepsFrame { s with srx := x } := .of_framePart rfl

theorem State.keepsFrame_enqueue (s : State) (m : StationSubmission) : s.KeepsFrame (s.enqueue m) := by
  unfold State.enqueue
  split <;> exact .of_framePart rfl

/-- A local request joins complete. -/
theorem State.keepsFrame_offerLocal (s : State) (m : StationSubmission) : s.KeepsFrame (s.offerLocal m) := by
  unfold State.offerLocal
  split
  · refine { State.KeepsFrame.refl s with
      collecting := by simp [List.countP_append, Request.collecting]
      stations := fun h r hr => ?_ }
    rcases List.mem_append.1 hr with hr | hr
    · exact h r hr
    · rw [List.mem_singleton.1 hr]
      exact fun _ => rfl
  · exact (s.keepsFrame_count _).trans (State.keepsFrame_refuse _ _ _ _)

theorem State.keepsFrame_accept (s : State) (m : StationSubmission) : s.KeepsFrame (s.accept m) := by
  unfold State.accept
  split
  · exact s.keepsFrame_refuse _ _ _
  split
  · exact s.keepsFrame_refuse _ _ _
  split
  · exact s.keepsFrame_offerLocal m
  split
  · exact s.keepsFrame_refuse _ _ _
  split
  · exact s.keepsFrame_refuse _ _ _
  · exact s.keepsFrame_enqueue m

theorem State.keepsFrame_stationGood (s : State) : s.KeepsFrame s.stationGood := by
  unfold State.stationGood
  split
  · split
    · exact (s.keepsFrame_srx _).trans (State.keepsFrame_accept _ _)
    · exact .refl s
  · exact .refl s

theorem State.keepsFrame_stationFlag (s : State) : s.KeepsFrame s.stationFlag := by
  unfold State.stationFlag
  split <;> exact .of_framePart rfl

theorem State.keepsFrame_stationAbort (s : State) (idle : Bool) : s.KeepsFrame (s.stationAbort idle) := by
  unfold State.stationAbort
  split <;> exact .of_framePart rfl

theorem State.keepsFrame_endBreak (s : State) : s.KeepsFrame s.endBreak := by
  unfold State.endBreak
  split
  · refine State.KeepsFrame.trans ?_ (State.keepsFrame_causeStatus _)
    exact .of_framePart rfl
  · exact .refl s

/-- The port becomes idle, having sent no delivery entry. -/
theorem State.KeepsFrame.of_portIdle {s t : State}
    (same : ({ t with ptx := s.ptx, reports := s.reports, replies := s.replies } : State).framePart = s.framePart)
    (noDelivery : s.ptx ≠ .delivery) (idle : t.ptx = .idle) : s.KeepsFrame t :=
  { State.KeepsFrame.of_framePart same with
    delivering := by simp [idle, noDelivery]
    record := by simp [idle]
    reply := by simp [idle] }

theorem State.keepsFrame_portAbortSent (s : State) : s.KeepsFrame s.portAbortSent := by
  unfold State.portAbortSent
  split
  · rename_i h
    exact .of_portIdle rfl (by simp [h]) rfl
  · exact .refl s

end Sys2Proof.Machine
end

section
/-! SUPPORT. The operations that move a part of the arriving frame: octets going out, the copies' starts and ends, the
frame's end, its header, its info octets. Each keeps the agreement of receiver, verdict and blocks. -/

namespace Sys2Proof.Machine

/-! ### The head of the transit queue (R55, R56, R57) -/

/-- An operation that changes the transit queue and its transmitter, and leaves the rest of the arriving frame alone. -/
theorem FrameSound.of_transit {s t : State} (h : FrameSound s) (transit : TransitSound t)
    (k : s.KeepsFrame { t with transit := s.transit, ltx := s.ltx }) : FrameSound t := by
  obtain ⟨tracked, -, delivery, arrivals⟩ := k.frameSound h
  exact ⟨tracked, transit, delivery, arrivals⟩

/-- The head changes its figures or its place on the line; its frame and its end status stay. -/
theorem TransitSound.of_head {s t : State} {e e' : TransitEntry} {es : List TransitEntry} (h : TransitSound s)
    (before : s.transit = e :: es) (now : t.transit = e' :: es) (rx : t.rx.state = s.rx.state)
    (verdict : t.verdict = s.verdict) (sound : e'.Sound) (status : e'.status = e.status)
    (tracks : e.Tracks s → e'.Tracks s) (line : t.ltx = .forwarding ↔ e'.sending = .yes) : TransitSound t := by
  obtain ⟨sounds, good, heads, tracked⟩ := (transitSound_iff s).1 h
  rw [before] at sounds good heads tracked
  rw [transitSound_iff, now]
  simp only [List.map_cons, List.forall_mem_cons] at sounds good heads tracked ⊢
  refine ⟨⟨sound, sounds.2⟩, status ▸ good, heads.cons line, fun ha => ?_, fun x hx ha => ?_⟩
  · exact (tracks (tracked.1 (status ▸ ha))).congr rx verdict
  · exact (tracked.2 x hx ha).congr rx verdict

/-- The head leaves, and the transmitter with it. -/
theorem TransitSound.of_tail {s t : State} {e : TransitEntry} {es : List TransitEntry} (h : TransitSound s)
    (before : s.transit = e :: es) (now : t.transit = es) (rx : t.rx.state = s.rx.state)
    (verdict : t.verdict = s.verdict) (free : t.ltx ≠ .forwarding) : TransitSound t := by
  obtain ⟨sounds, good, heads, tracked⟩ := (transitSound_iff s).1 h
  rw [before] at sounds good heads tracked
  rw [transitSound_iff, now]
  simp only [List.map_cons, List.forall_mem_cons] at sounds good heads tracked
  refine ⟨sounds.2, fun x hx => good x ?_, heads.tail (by decide) free, fun x hx ha => ?_⟩
  · cases es with
    | nil => cases hx
    | cons b es => exact List.mem_cons_of_mem _ hx
  · exact (tracked.2 x hx ha).congr rx verdict

theorem TransitSound.head {s : State} {e : TransitEntry} {es : List TransitEntry} (h : TransitSound s)
    (ht : s.transit = e :: es) : e.Sound ∧ (s.ltx = .forwarding ↔ e.sending = .yes) := by
  obtain ⟨sounds, -, ⟨-, line⟩, -⟩ := (transitSound_iff s).1 h
  rw [ht] at sounds line
  exact ⟨sounds e (by simp), by simpa using line⟩

theorem State.octetTime_frameSound {s : State} (h : FrameSound s) : FrameSound s.octetTime := by
  unfold State.octetTime
  split
  · rename_i e es hl ht
    have transit := h.2.1
    obtain ⟨sound, line⟩ := transit.head ht
    refine h.of_transit ?_ (.of_framePart rfl)
    unfold TransitEntry.sendOctet
    split
    · rename_i hc
      obtain ⟨h1, h2, h3, h4⟩ := sound
      exact transit.of_head ht rfl rfl rfl ⟨h1, h2, hc.2, h4⟩ rfl id line
    · exact transit.of_head ht rfl rfl rfl sound rfl id line
  · exact h

theorem State.octetTimes_frameSound {s : State} (h : FrameSound s) (n : Nat) : FrameSound (s.octetTimes n) := by
  induction n generalizing s with
  | zero => exact h
  | succ n ih => exact ih (State.octetTime_frameSound h)

/-- The underrun leaves the entry ABANDONED and its figures as they are (R57). -/
theorem State.underrun_frameSound {s : State} (h : FrameSound s) : FrameSound s.underrun := by
  unfold State.underrun
  split
  · exact h
  · rename_i e es ht
    split
    · rename_i hc
      obtain ⟨hl, hs, ha, -⟩ := hc
      have transit := h.2.1
      obtain ⟨⟨h1, h2, h3, h4, h5, h6, h7, h8⟩, line⟩ := transit.head ht
      refine h.of_transit (transit.of_head ht rfl rfl rfl ⟨h1, h2, h3, h4, h5, h6, ?_, h8⟩ rfl ?_ (by simp))
        { State.KeepsFrame.refl s with record := fun h hp => by simp [h hp] }
      · intro hg
        rw [hg] at ha
        cases ha
      · rintro ⟨t1, t2, -⟩
        exact ⟨t1, t2, fun hn => absurd rfl hn⟩
    · exact h

theorem State.completeForward_frameSound {s : State} (h : FrameSound s) : FrameSound s.completeForward := by
  unfold State.completeForward
  split
  · exact h
  · rename_i e es ht
    split
    · exact h.of_transit (h.2.1.of_tail ht rfl rfl rfl (by simp)) (.of_framePart rfl)
    · exact h

/-- A copy's start makes the head the one being sent (R70). -/
theorem State.arbitrate_frameSound {s : State} (h : FrameSound s) : FrameSound s.arbitrate := by
  unfold State.arbitrate
  split
  · rename_i hi
    split
    · rename_i e es ht
      split
      · rename_i hm
        obtain ⟨hn, -⟩ := of_decide_eq_true hm
        have transit := h.2.1
        obtain ⟨⟨h1, h2, h3, h4, h5, h6, h7, h8⟩, line⟩ := transit.head ht
        refine h.of_transit (transit.of_head ht rfl rfl rfl ⟨h1, h2, h3, h4, h5, h6, ?_, h8⟩ rfl ?_ (by simp))
          (.of_framePart rfl)
        · exact fun hg => ⟨(h7 hg).1, by simp⟩
        · rintro ⟨t1, t2, t3⟩
          exact ⟨t1, t2, fun _ => t3 (by simp [hn])⟩
      · exact h
    · exact (State.keepsFrame_insert hi).frameSound h
  · exact h

/-! ### The delivery head at the station port (R108, R110, R111, R129) -/

/-- An operation that changes the delivery store and what the station port sends, and leaves the rest of the arriving
frame alone. -/
theorem FrameSound.of_delivery {s t : State} (h : FrameSound s) (delivery : DeliverySound t)
    (k : s.KeepsFrame { t with delivery := s.delivery, ptx := s.ptx, reports := s.reports, replies := s.replies }) :
    FrameSound t := by
  obtain ⟨tracked, transit, -, arrivals⟩ := k.frameSound h
  exact ⟨tracked, transit, delivery, arrivals⟩

theorem State.portChoice_frameSound {s : State} (h : FrameSound s) : FrameSound s.portChoice := by
  unfold State.portChoice
  split
  · rename_i hi
    split
    · rename_i r rest hr
      refine State.KeepsFrame.frameSound ?_ h
      unfold State.beginRecord
      split
      · exact { State.KeepsFrame.refl s with
          delivering := by simp [hi]
          record := fun _ _ => by simp
          reply := fun _ h => (nomatch h) }
      · exact { State.KeepsFrame.refl s with
          delivering := by simp [hi]
          record := fun _ _ => by simp [hr]
          reply := fun _ h => (nomatch h) }
    · rename_i hr
      refine State.KeepsFrame.frameSound ?_ h
      exact { State.KeepsFrame.refl s with
        delivering := by simp [hi]
        record := fun _ h => (nomatch h)
        reply := fun _ _ => by simp [hr] }
    · rename_i e _ _ he
      refine h.of_delivery ?_ (.of_framePart rfl)
      obtain ⟨sounds, good, heads, tracked, -⟩ := (deliverySound_iff s).1 h.2.2.1
      obtain ⟨hd, hg⟩ := Option.filter_eq_some_iff.1 he
      obtain ⟨es, ht⟩ : ∃ es, s.delivery = e :: es := by
        cases hs : s.delivery with
        | nil => simp [hs] at hd
        | cons b es => exact ⟨es, by simpa [hs] using hd⟩
      have isGood : e.status = .good := by simp at hg; exact hg.1
      rw [ht] at sounds good heads tracked
      simp only [List.map_cons, List.forall_mem_cons] at sounds good heads tracked
      obtain ⟨⟨h1, h2, h3, h4, h5, h6⟩, sounds⟩ := sounds
      rw [deliverySound_iff]
      simp only [ht, List.tail_cons, List.map_cons, List.forall_mem_cons]
      refine ⟨⟨⟨h1, h2, h3, h4, h5, fun _ => isGood⟩, sounds⟩, good, heads.cons (by simp), ⟨fun ha => ?_, tracked.2⟩,
        fun h => (nomatch h), fun h => (nomatch h)⟩
      rw [isGood] at ha
      cases ha
    · exact h
  · exact h

theorem State.recordSent_keepsFrame {s : State} (hp : s.ptx = .record) : s.KeepsFrame s.recordSent := by
  unfold State.recordSent
  split
  · exact .of_portIdle rfl (by simp [hp]) rfl
  · split
    · exact .of_portIdle rfl (by simp [hp]) rfl
    · exact .of_portIdle rfl (by simp [hp]) rfl

theorem State.reportSent_frameSound {s : State} (h : FrameSound s) : FrameSound s.reportSent := by
  unfold State.reportSent
  split
  · rename_i hp
    exact (State.recordSent_keepsFrame hp).frameSound h
  · rename_i hp
    refine State.KeepsFrame.frameSound ?_ h
    exact .of_portIdle rfl (by simp [hp]) rfl
  · rename_i hp
    refine h.of_delivery ?_ (.of_framePart rfl)
    obtain ⟨sounds, good, heads, tracked, -⟩ := (deliverySound_iff s).1 h.2.2.1
    rw [deliverySound_iff]
    refine ⟨fun e he => sounds e (List.mem_of_mem_tail he), fun x hx => good x ?_, ?_,
      fun e he ha => tracked e (List.mem_of_mem_tail he) ha, fun h => (nomatch h), fun h => (nomatch h)⟩
    · cases hd : s.delivery with
      | nil => simp [hd] at hx
      | cons b es =>
        cases es with
        | nil => simp [hd] at hx
        | cons b es =>
          simp only [hd, List.tail_cons] at hx
          exact List.mem_cons_of_mem _ hx
    · cases hd : s.delivery with
      | nil => exact .nil (by simp)
      | cons b es =>
        rw [hd] at heads
        simpa [hd] using heads.tail (other := PortTx.idle = PortTx.delivery) (by decide) (by simp)
  · exact h

/-- A break empties the station's side of the delivery store (R111, R129, R155). -/
theorem State.breakEffects_frameSound {s : State} (h : FrameSound s) : FrameSound s.breakEffects := by
  have quiet : s.ptx.abort ≠ .delivery ∧ s.ptx.abort ≠ .record ∧ s.ptx.abort ≠ .reply := by
    cases s.ptx <;> simp [PortTx.abort]
  obtain ⟨notDelivery, notRecord, notReply⟩ := quiet
  have silent : ∀ e : LogEntry, e.silence.isOutstanding = e.isOutstanding := fun _ => rfl
  refine h.of_delivery ?_ ?_
  · rw [deliverySound_iff]
    exact ⟨by simp [State.breakEffects], by simp [State.breakEffects], .nil notDelivery, by simp [State.breakEffects],
      fun h => absurd h notRecord, fun h => absurd h notReply⟩
  · exact { State.KeepsFrame.refl s with
      returning := by simp [State.breakEffects, List.countP_map, Function.comp_def, silent]
      collecting := List.filter_sublist.countP_le
      stations := fun hs r hr => hs r (List.mem_of_mem_filter hr) }

theorem State.startBreak_frameSound {s : State} (h : FrameSound s) (bits : List Bool) :
    FrameSound (s.startBreak bits) := by
  unfold State.startBreak
  split
  · exact State.breakEffects_frameSound ((s.keepsFrame_srx _).frameSound h)
  · exact h

theorem State.breakInHunt_frameSound {s : State} (h : FrameSound s) : FrameSound s.breakInHunt := by
  unfold State.breakInHunt
  split
  · exact State.breakEffects_frameSound h
  · exact h

theorem State.stationExcess_frameSound {s : State} (h : FrameSound s) (v : Byte) (rest : List Bool) :
    FrameSound (s.stationExcess v rest) :=
  State.breakInHunt_frameSound (((s.keepsFrame_srx _).trans (State.keepsFrame_discard _)).frameSound h)

theorem State.stationOctet_frameSound {s : State} (h : FrameSound s) (v : Byte) (rest : List Bool) :
    FrameSound (s.stationOctet v rest) := by
  unfold State.stationOctet
  split
  · exact State.stationExcess_frameSound h v rest
  · have taken := (s.keepsFrame_srx ((s.srx.passOctet v rest).take v)).frameSound h
    dsimp only
    split
    · exact State.breakEffects_frameSound taken
    · exact taken

theorem State.stationDiscard_frameSound {s : State} (h : FrameSound s) (how : StationEnd) :
    FrameSound (s.stationDiscard how) := by
  have discarded : ∀ x : StationRx, FrameSound ({ s with srx := x } : State).discard := fun x =>
    ((s.keepsFrame_srx x).trans (State.keepsFrame_discard _)).frameSound h
  unfold State.stationDiscard
  split
  · split
    · split
      · exact h
      · exact discarded _
    · split
      · exact State.stationExcess_frameSound h _ _
      · exact h
    · exact discarded _
  · exact h

/-! ### The frame's end (R12, R52 to R54, R58, R89, R90, R105, R106, R134) -/

/-- What a GOOD end needs: every entry that tracks the frame has all of it. -/
def State.Whole (s : State) : Prop := ∀ d n, s.heldOf d = some n → n = 8 + d

theorem State.whole_of_judge_good {s : State} {f : RxFrame} {ragged : Bool} (hf : s.rx.state = .frame f)
    (h : f.judge 0 ragged = .good) : s.Whole := by
  have long : 8 + f.length + 2 ≤ f.count := by
    by_contra hc
    unfold RxFrame.judge at h
    split at h
    · cases h
    split at h
    · cases h
    · rw [if_pos (by omega)] at h
      cases h
  intro d n hn
  simp only [State.heldOf, hf, RxState.frame?] at hn
  split at hn
  · rename_i hc
    obtain rfl := Option.some.inj hn
    have : f.length = d := by simp [RxFrame.length, hc.2]
    omega
  · cases hn

/-- Either every copy in the queue is whole, or the newest is the arriving frame's. -/
theorem TransitSound.cases {s : State} (h : TransitSound s) :
    TransitAtRest s.transit s.ltx ∨
      ∃ older e, s.transit = older ++ [e] ∧ e.status = .arriving ∧ e.Tracks s ∧ e.Sound ∧
        (∀ x ∈ older, x.Sound ∧ x.status = .good) ∧
        HeadOnly .no .yes ((older ++ [e]).map (fun x => x.sending)) (s.ltx = .forwarding) := by
  obtain ⟨sounds, good, heads, tracked⟩ := (transitSound_iff s).1 h
  rcases s.transit.eq_nil_or_concat' with hn | ⟨older, e, hs⟩
  · exact .inl ⟨by simp [hn], heads⟩
  · rw [hs] at sounds good heads tracked
    simp only [List.map_append, List.map_cons, List.map_nil, List.dropLast_concat, List.forall_mem_map] at good
    have older_good : ∀ x ∈ older, x.Sound ∧ x.status = .good := fun x hx =>
      ⟨sounds x (List.mem_append_left _ hx), good x hx⟩
    have sound := sounds e (by simp)
    by_cases ha : e.status = .arriving
    · exact .inr ⟨older, e, hs, ha, tracked e (by simp) ha, sound, older_good, heads⟩
    · refine .inl ⟨fun x hx => ?_, by rw [hs]; exact heads⟩
      rw [hs] at hx
      rcases List.mem_append.1 hx with hx | hx
      · exact older_good x hx
      · rw [List.mem_singleton.1 hx]
        obtain ⟨-, -, -, -, -, notBad, -, -⟩ := sounds e (by simp)
        exact ⟨sound, EndStatus.eq_good notBad ha⟩

theorem DeliverySound.cases {s : State} (h : DeliverySound s) :
    DeliveryAtRest s.delivery s.ptx ∨
      ∃ older e, s.delivery = older ++ [e] ∧ e.status = .arriving ∧ e.Tracks s ∧ e.Sound ∧
        (∀ x ∈ older, x.Sound ∧ x.status = .good) ∧
        HeadOnly false true ((older ++ [e]).map (fun x => x.onPort)) (s.ptx = .delivery) := by
  obtain ⟨sounds, good, heads, tracked, -⟩ := (deliverySound_iff s).1 h
  rcases s.delivery.eq_nil_or_concat' with hn | ⟨older, e, hs⟩
  · exact .inl ⟨by simp [hn], heads⟩
  · rw [hs] at sounds good heads tracked
    simp only [List.map_append, List.map_cons, List.map_nil, List.dropLast_concat, List.forall_mem_map] at good
    have older_good : ∀ x ∈ older, x.Sound ∧ x.status = .good := fun x hx =>
      ⟨sounds x (List.mem_append_left _ hx), good x hx⟩
    have sound := sounds e (by simp)
    by_cases ha : e.status = .arriving
    · exact .inr ⟨older, e, hs, ha, tracked e (by simp) ha, sound, older_good, heads⟩
    · refine .inl ⟨fun x hx => ?_, by rw [hs]; exact heads⟩
      rw [hs] at hx
      rcases List.mem_append.1 hx with hx | hx
      · exact older_good x hx
      · rw [List.mem_singleton.1 hx]
        obtain ⟨-, -, -, notBad, -, -⟩ := sounds e (by simp)
        exact ⟨sound, EndStatus.eq_good notBad ha⟩

theorem TransitAtRest.not_arriving {s : State} (h : TransitAtRest s.transit s.ltx) :
    ∀ e, s.transit.getLast? = some e → e.status ≠ .arriving := by
  intro e he
  rw [(h.1 e (List.mem_of_getLast? he)).2]
  simp

theorem DeliveryAtRest.not_arriving {s : State} (h : DeliveryAtRest s.delivery s.ptx) :
    ∀ e, s.delivery.getLast? = some e → e.status ≠ .arriving := by
  intro e he
  rw [(h.1 e (List.mem_of_getLast? he)).2]
  simp

theorem State.endTransit_atRest {s : State} (h : TransitSound s) {good : Bool} (whole : good = true → s.Whole) :
    TransitAtRest (s.endTransit good).transit (s.endTransit good).ltx := by
  rcases h.cases with rest | ⟨older, e, hs, ha, ⟨-, -, held⟩, sound, older_good, heads⟩
  · rw [State.endTransit_of_none rest.not_arriving]
    exact rest
  · rw [State.endTransit_of_arriving hs ha]
    rw [List.map_append, List.map_singleton] at heads
    cases good with
    | true =>
      by_cases hab : e.sending = .abandoned
      · simp only [hab, ne_eq, not_true_eq_false, and_false, if_false, reduceCtorEq]
        exact ⟨older_good, heads.of_append (by decide) (by simp [hab])⟩
      · obtain ⟨h1, h2, h3, h4, h5, h6, h7, h8⟩ := sound
        have all : e.received = e.reservation := by
          rw [whole rfl _ _ (held hab), h1]
        have finished : e.finish.Sound ∧ e.finish.status = .good := by
          refine ⟨⟨h1, h2, ?_, ?_, h5, by simp [TransitEntry.finish], fun _ => ⟨rfl, hab⟩,
            by simp [TransitEntry.finish]⟩, rfl⟩
          · exact h3.trans (h4.trans h5)
          · exact all.ge
        simp only [hab, ne_eq, not_false_eq_true, and_self, if_true, Bool.true_eq_false, false_and, if_false]
        refine ⟨List.forall_mem_append.2 ⟨older_good, List.forall_mem_singleton.2 finished⟩, ?_⟩
        simpa [TransitEntry.finish] using heads
    | false =>
      simp only [Bool.false_eq_true, false_and, if_false, true_and]
      refine ⟨older_good, heads.of_append (by decide) ?_⟩
      by_cases hy : e.sending = .yes <;> simp [hy]

theorem State.endDelivery_atRest {s : State} (h : DeliverySound s) {good : Bool} (whole : good = true → s.Whole) :
    DeliveryAtRest (s.endDelivery good).delivery s.ptx := by
  rcases h.cases with rest | ⟨older, e, hs, ha, ⟨held, -⟩, sound, older_good, heads⟩
  · rw [State.endDelivery_of_none rest.not_arriving]
    exact rest
  · rw [State.endDelivery_of_arriving hs ha]
    rw [List.map_append, List.map_singleton] at heads
    obtain ⟨h1, h2, h3, h4, h5, h6⟩ := sound
    cases good with
    | true =>
      refine ⟨List.forall_mem_append.2 ⟨older_good, List.forall_mem_singleton.2 ?_⟩, by simpa using heads⟩
      exact ⟨⟨h1, h2, h3, by simp, fun _ => whole rfl _ _ held, fun _ => rfl⟩, rfl⟩
    | false =>
      have offPort : e.onPort ≠ true := fun hp => by
        rw [h6 hp] at ha
        cases ha
      exact ⟨older_good, heads.of_append (by decide) (by simp [offPort])⟩

theorem State.endRequest_complete {s : State} (h : ArrivalsSound s) (good : Bool) :
    ∀ r ∈ (s.endRequest good).requests, r.complete = true := by
  obtain ⟨-, -, -, -, stations⟩ := h
  rw [State.endRequest_requests]
  intro r hr
  cases good with
  | true =>
    simp only [if_true, List.mem_map] at hr
    obtain ⟨q, hq, rfl⟩ := hr
    split
    · rfl
    · rename_i hc
      exact Request.complete_of_not_collecting (by simpa using hc) (stations q hq)
  | false =>
    simp only [Bool.false_eq_true, if_false, List.mem_filter, Bool.not_eq_true'] at hr
    exact Request.complete_of_not_collecting hr.2 (stations r hr.1)

/-- At most one entry is RETURNING, so its end leaves none. -/
theorem State.endReturning_outstanding {s : State} (h : ArrivalsSound s) (good : Bool) :
    ∀ e ∈ (s.endReturning good).log, e.isOutstanding = true := by
  obtain ⟨one, -⟩ := h
  by_cases none : ∀ e ∈ s.log, e.isOutstanding = true
  · rw [State.endReturning_of_none none]
    exact none
  · simp only [not_forall, Bool.not_eq_true] at none
    obtain ⟨x, hx, ho⟩ := none
    obtain ⟨e, older, newer, before, he, hs, -⟩ :=
      List.exists_of_eraseP (p := fun e : LogEntry => !e.isOutstanding) hx (by simp [ho])
    have older_out : ∀ x ∈ older, x.isOutstanding = true := fun x hx => by simpa using before x hx
    have newer_out : ∀ x ∈ newer, x.isOutstanding = true := by
      rw [hs, List.filter_append, List.filter_cons_of_pos (p := fun e : LogEntry => !e.isOutstanding) he,
        List.length_append, List.length_cons] at one
      have empty : newer.filter (fun e => !e.isOutstanding) = [] := List.eq_nil_of_length_eq_zero (by omega)
      intro x hx
      simpa using List.filter_eq_nil_iff.1 empty x hx
    rw [State.endReturning_of_returning hs older_out (by simpa using he)]
    intro x hx
    rcases List.mem_append.1 hx with hx | hx
    · exact older_out x hx
    · exact newer_out x hx

theorem State.endReturning_reports (s : State) (good : Bool) : s.reports <+: (s.endReturning good).reports := by
  unfold State.endReturning
  split
  · exact List.prefix_refl _
  · exact List.prefix_append _ _

/-- A frame's end leaves every block at rest, if a GOOD end finds the frame whole. -/
theorem FrameSound.frameEnd_atRest {s : State} (h : FrameSound s) {c : EndCond} (whole : c = .good → s.Whole) :
    BlocksAtRest (s.frameEnd c) := by
  cases hv : s.verdict with
  | none =>
    rw [State.frameEnd_of_no_verdict hv]
    have rest := h.blocksAtRest hv
    split <;> exact rest
  | some r =>
    obtain ⟨-, transit, delivery, arrivals⟩ := h
    have whole' : c.isGood = true → s.Whole := fun hg => whole ((c.isGood_iff).1 hg)
    have port : PortSends s := ((deliverySound_iff s).1 delivery).2.2.2.2
    rw [State.frameEnd_eq hv]
    refine ⟨?_, ⟨?_, ?_, port.2⟩, ?_, ?_⟩
    · cases hf : r.forward with
      | true => exact State.endTransit_atRest transit whole'
      | false =>
        rcases transit.cases with rest | ⟨-, e, -, -, ⟨forward, -, -⟩, -⟩
        · exact rest
        · simp [hv, hf] at forward
    · cases hk : r.keepsCopy with
      | true => exact State.endDelivery_atRest delivery whole'
      | false =>
        rcases delivery.cases with rest | ⟨-, e, -, -, ⟨-, keeps⟩, -⟩
        · exact rest
        · simp [hv, hk] at keeps
    · intro hp
      dsimp only
      split
      · exact fun empty => port.1 hp (List.prefix_nil.1 (empty ▸ s.endReturning_reports _))
      · exact port.1 hp
    · dsimp only
      split
      · exact State.endReturning_outstanding arrivals _
      · rename_i notStrip
        obtain ⟨-, strip, -⟩ := arrivals
        intro e he
        by_contra ho
        have := strip (List.any_eq_true.2 ⟨e, he, by simp [ho]⟩)
        simp [hv, notStrip] at this
    · dsimp only
      split
      · exact State.endRequest_complete arrivals _
      · rename_i notKept
        obtain ⟨-, -, -, kept, stations⟩ := arrivals
        intro q hq
        refine Request.complete_of_not_collecting ?_ (stations q hq)
        by_contra hc
        have := kept (List.any_eq_true.2 ⟨q, hq, by simpa using hc⟩)
        simp [hv, notKept] at this

/-- The receiver leaves the frame with its end. -/
theorem FrameSound.frameEnd {s : State} (h : FrameSound s) {c : EndCond} (whole : c = .good → s.Whole) (rx : LoopRx)
    (sup : Supervisor) (left : rx.state.frame? = none) : FrameSound { s.frameEnd c with rx := rx, sup := sup } :=
  (show BlocksAtRest { s.frameEnd c with rx := rx, sup := sup } from h.frameEnd_atRest whole).frameSound
    (State.verdictTracks_of_no_frame left (s.frameEnd_verdict c))

/-- A receiver with no header complete moves while every block is at rest. -/
theorem FrameSound.of_rx {s : State} (h : FrameSound s) (hv : s.verdict = none) (rx : LoopRx) (sup : Supervisor)
    (tracks : ({ s with rx := rx, sup := sup } : State).verdictTracks = true) :
    FrameSound { s with rx := rx, sup := sup } :=
  (show BlocksAtRest { s with rx := rx, sup := sup } from h.blocksAtRest hv).frameSound tracks

end Sys2Proof.Machine
end

section
/-! SUPPORT. What a completed octet brings a receiver's frame, the octets after the header, and the header itself. -/

namespace Sys2Proof.Machine

/-! ### One octet in the receiver (R5, R6) -/

/-- An octet before the header's last is kept. -/
theorem RxFrame.push_of_header {lead : Nat} {f : RxFrame} (h : f.count + 1 < lead + 8) (v : Byte) :
    f.push lead v = { f with count := f.count + 1, fcs := fcsOctet f.fcs v, head := f.head ++ [v] } := by
  have before : f.count < lead + 8 := by omega
  have notLast : f.count + 1 ≠ lead + 8 := by omega
  rw [RxFrame.push, if_pos before, if_neg notLast]

/-- The header's last octet also gives the declared length. -/
theorem RxFrame.push_of_last {lead : Nat} {f : RxFrame} (h : f.count + 1 = lead + 8) (v : Byte) :
    f.push lead v =
      { f with count := f.count + 1, fcs := fcsOctet f.fcs v, head := f.head ++ [v],
               declared := some (declaredIn lead (f.head ++ [v])) } := by
  have before : f.count < lead + 8 := by omega
  simp [RxFrame.push, before, h]

theorem RxFrame.push_of_info {lead : Nat} {f : RxFrame} (h : lead + 8 ≤ f.count)
    (info : f.count < lead + 8 + f.length) (v : Byte) :
    f.push lead v = { f with count := f.count + 1, fcs := fcsOctet f.fcs v } := by
  have after : ¬ f.count < lead + 8 := by omega
  simp [RxFrame.push, after, info]

theorem RxFrame.push_of_check {lead : Nat} {f : RxFrame} (h : lead + 8 + f.length ≤ f.count) (v : Byte) :
    f.push lead v = { f with count := f.count + 1, check := f.check ++ [v] } := by
  have after : ¬ f.count < lead + 8 := by omega
  have beyond : ¬ f.count < lead + 8 + f.length := by omega
  simp [RxFrame.push, after, beyond]

theorem RxFrame.atExcess_iff {lead : Nat} (f : RxFrame) :
    f.atExcess lead = true ↔ lead + 8 ≤ f.count ∧ f.count = lead + 8 + f.length + 2 := by
  simp only [RxFrame.atExcess, decide_eq_true_eq]
  omega

theorem RxFrame.length_eq {f : RxFrame} {d : Nat} (h : f.declared = some d) : f.length = d := by
  simp [RxFrame.length, h]

/-! ### An octet on the loop receive line, by the receiver's state and the frame's count (R3 to R8, R13) -/

theorem State.loopOctet_of_hunt {s : State} (h : s.rx.state = .hunt) (v : Byte) (rest : List Bool) :
    s.loopOctet v rest = { s with rx := ⟨.hunt, 0, []⟩ } := by
  unfold State.loopOctet
  rw [h]

theorem State.loopOctet_of_fill {s : State} (h : s.rx.state = .fill) (v : Byte) (rest : List Bool) :
    s.loopOctet v rest = { s with rx := ⟨.frame (RxFrame.empty.push 0 v), 0, rest⟩ } := by
  unfold State.loopOctet
  rw [h]

section
variable {s : State} {f : RxFrame} (h : s.rx.state = .frame f) (v : Byte) (rest : List Bool)
include h

theorem State.loopOctet_of_frame :
    s.loopOctet v rest = ({ s with rx := ⟨.frame f, 0, rest⟩ } : State).frameOctet f v := by
  unfold State.loopOctet
  rw [h]

theorem State.loopOctet_of_header (early : f.count < 7) :
    s.loopOctet v rest = { s with rx := ⟨.frame (f.push 0 v), 0, rest⟩ } := by
  have push := RxFrame.push_of_header (lead := 0) (f := f) (by omega) v
  have notExcess : ¬ f.atExcess 0 = true := by rw [f.atExcess_iff]; omega
  have notEighth : ¬ (f.push 0 v).count = 8 := by simp only [push]; omega
  have notInfo : ¬ (f.push 0 v).tookInfo 0 = true := by
    simp only [RxFrame.tookInfo, push, decide_eq_true_eq]
    omega
  rw [State.loopOctet_of_frame h, State.frameOctet, if_neg notExcess]
  simp only [if_neg notEighth, if_neg notInfo]

theorem State.loopOctet_of_last (last : f.count = 7) :
    s.loopOctet v rest =
      ({ s with rx := ⟨.frame (f.push 0 v), 0, rest⟩ } : State).headerComplete (Header.ofOctets 0 (f.head ++ [v])) := by
  have push := RxFrame.push_of_last (lead := 0) (f := f) (by omega) v
  have notExcess : ¬ f.atExcess 0 = true := by rw [f.atExcess_iff]; omega
  have eighth : (f.push 0 v).count = 8 := by simp only [push]; omega
  have head : (f.push 0 v).head = f.head ++ [v] := by simp only [push]
  rw [State.loopOctet_of_frame h, State.frameOctet, if_neg notExcess]
  simp only [if_pos eighth, head]

theorem State.loopOctet_of_info (after : 8 ≤ f.count) (info : f.count < 8 + f.length) :
    s.loopOctet v rest = ({ s with rx := ⟨.frame (f.push 0 v), 0, rest⟩ } : State).infoOctet v := by
  have push := RxFrame.push_of_info (lead := 0) (f := f) (by omega) (by omega) v
  have notExcess : ¬ f.atExcess 0 = true := by rw [f.atExcess_iff]; omega
  have notEighth : ¬ (f.push 0 v).count = 8 := by simp only [push]; omega
  have isInfo : (f.push 0 v).tookInfo 0 = true := by
    simp only [RxFrame.length] at info
    simp only [RxFrame.tookInfo, push, RxFrame.length, decide_eq_true_eq]
    omega
  rw [State.loopOctet_of_frame h, State.frameOctet, if_neg notExcess]
  simp only [if_neg notEighth, if_pos isInfo]

theorem State.loopOctet_of_check (beyond : 8 + f.length ≤ f.count)
    (room : f.count ≠ 8 + f.length + 2) :
    s.loopOctet v rest = { s with rx := ⟨.frame (f.push 0 v), 0, rest⟩ } := by
  have push := RxFrame.push_of_check (lead := 0) (f := f) (by omega) v
  have notExcess : ¬ f.atExcess 0 = true := by rw [f.atExcess_iff]; omega
  have notEighth : ¬ (f.push 0 v).count = 8 := by simp only [push]; omega
  have notInfo : ¬ (f.push 0 v).tookInfo 0 = true := by
    simp only [RxFrame.length] at beyond
    simp only [RxFrame.tookInfo, push, RxFrame.length, decide_eq_true_eq]
    omega
  rw [State.loopOctet_of_frame h, State.frameOctet, if_neg notExcess]
  simp only [if_neg notEighth, if_neg notInfo]

theorem State.loopOctet_of_excess (excess : f.count = 8 + f.length + 2) :
    s.loopOctet v rest = { s.frameEnd .length with rx := ⟨.hunt, 0, []⟩ } := by
  have isExcess : f.atExcess 0 = true := by rw [f.atExcess_iff]; omega
  rw [State.loopOctet_of_frame h, State.frameOctet, if_pos isExcess, State.frameEnd_rx]
  rfl

end

/-! ### The octet events of the engaged blocks (R8, R40, R50, R104, R134) -/

theorem State.infoOctet_eq (s : State) (v : Byte) :
    s.infoOctet v =
      { s with
        transit :=
          if s.verdict.map (fun r => r.forward) = some true then
            modifyLast TransitEntry.arriving (TransitEntry.takeOctet v) s.transit
          else s.transit
        delivery :=
          if s.verdict.map (fun r => r.keepsCopy) = some true then
            modifyLast DeliveryEntry.arriving (DeliveryEntry.takeOctet v) s.delivery
          else s.delivery
        requests :=
          if s.verdict.map (fun r => r.keepsRequest) = some true then
            s.requests.map (fun r => if r.collecting then { r with octets := r.octets ++ [v] } else r)
          else s.requests } := by
  unfold State.infoOctet
  cases hv : s.verdict with
  | none =>
    simp only [Option.map_none, reduceCtorEq, if_false]
    rw [← hv]
  | some r =>
    simp only [Option.map_some, Option.some.injEq]
    rw [← hv]
    cases r.forward <;> cases r.keepsCopy <;> cases r.keepsRequest <;> rfl

theorem modifyLast_of_not {α : Type} {p : α → Bool} {l : List α} (f : α → α)
    (h : ∀ a, l.getLast? = some a → p a = false) : modifyLast p f l = l := by
  rcases l.eq_nil_or_concat' with rfl | ⟨l, a, rfl⟩
  · rfl
  · rw [modifyLast_append, if_neg (by simp [h a])]

/-- What the receiver holds of the frame grows with an info octet. -/
theorem State.heldOf_of_info {s t : State} {f : RxFrame} {v : Byte} (hs : s.rx.state = .frame f)
    (ht : t.rx.state = .frame (f.push 0 v)) (after : 8 ≤ f.count) (info : f.count < 8 + f.length) {d n : Nat}
    (h : s.heldOf d = some n) : t.heldOf d = some (n + 1) ∧ n + 1 ≤ 8 + d := by
  simp only [State.heldOf, hs, RxState.frame?] at h
  split at h
  · rename_i hc
    have hd := RxFrame.length_eq hc.2
    obtain rfl := Option.some.inj h
    simp only [State.heldOf, ht, RxState.frame?, RxFrame.push_of_info (lead := 0) (by omega) (by omega)]
    rw [if_pos ⟨by omega, hc.2⟩]
    exact ⟨congrArg some (by omega), by omega⟩
  · cases h

/-- An FCS octet brings no more of header and info. -/
theorem State.heldOf_of_check {s t : State} {f : RxFrame} {v : Byte} (hs : s.rx.state = .frame f)
    (ht : t.rx.state = .frame (f.push 0 v)) (beyond : 8 + f.length ≤ f.count) (d : Nat) :
    t.heldOf d = s.heldOf d := by
  simp only [State.heldOf, hs, ht, RxState.frame?, RxFrame.push_of_check (lead := 0) (v := v) (by omega)]
  by_cases hd : f.declared = some d
  · have := RxFrame.length_eq hd
    rw [if_pos ⟨by omega, hd⟩, if_pos ⟨by omega, hd⟩]
    exact congrArg some (by omega)
  · simp [hd]

/-- The newest entry as it stands, behind whole ones. -/
theorem TransitSound.of_newest {t : State} {older : List TransitEntry} {e : TransitEntry}
    (ht : t.transit = older ++ [e]) (older_good : ∀ x ∈ older, x.Sound ∧ x.status = .good)
    (sound : e.Sound) (tracks : e.Tracks t)
    (heads : HeadOnly .no .yes ((older ++ [e]).map (fun x => x.sending)) (t.ltx = .forwarding)) : TransitSound t := by
  rw [transitSound_iff, ht]
  refine ⟨List.forall_mem_append.2 ⟨fun x hx => (older_good x hx).1, List.forall_mem_singleton.2 sound⟩, ?_, heads,
    List.forall_mem_append.2 ⟨fun x hx ha => ?_, List.forall_mem_singleton.2 fun _ => tracks⟩⟩
  · simpa using fun x hx => (older_good x hx).2
  · rw [(older_good x hx).2] at ha
    cases ha

theorem DeliverySound.of_newest {t : State} {older : List DeliveryEntry} {e : DeliveryEntry}
    (ht : t.delivery = older ++ [e]) (older_good : ∀ x ∈ older, x.Sound ∧ x.status = .good) (sound : e.Sound)
    (tracks : e.Tracks t) (heads : HeadOnly false true ((older ++ [e]).map (fun x => x.onPort)) (t.ptx = .delivery))
    (port : PortSends t) : DeliverySound t := by
  rw [deliverySound_iff, ht]
  refine ⟨List.forall_mem_append.2 ⟨fun x hx => (older_good x hx).1, List.forall_mem_singleton.2 sound⟩, ?_, heads,
    List.forall_mem_append.2 ⟨fun x hx ha => ?_, List.forall_mem_singleton.2 fun _ => tracks⟩, port⟩
  · simpa using fun x hx => (older_good x hx).2
  · rw [(older_good x hx).2] at ha
    cases ha

/-- A transit entry's figures after one more info octet, if the entry has room for it (R51). -/
theorem TransitEntry.takeOctet_sound {e : TransitEntry} (h : e.Sound) (ha : e.status = .arriving) (v : Byte)
    (room : e.sending ≠ .abandoned → e.received + 1 ≤ e.reservation) : (e.takeOctet v).Sound := by
  unfold TransitEntry.takeOctet
  split
  · exact h
  · rename_i hn
    have room := room hn
    obtain ⟨h1, h2, h3, h4, h5, h6, h7, h8⟩ := h
    have h8 := h8 ha
    refine ⟨h1, by simp; omega, ?_, ?_, room, h6, ?_, fun _ => ?_⟩
    · dsimp only
      split <;> omega
    · dsimp only
      split <;> omega
    · intro hg
      rw [ha] at hg
      cases hg
    · dsimp only
      split <;> omega

@[simp] theorem TransitEntry.takeOctet_sending (e : TransitEntry) (v : Byte) : (e.takeOctet v).sending = e.sending := by
  unfold TransitEntry.takeOctet
  split <;> rfl

@[simp] theorem TransitEntry.takeOctet_header (e : TransitEntry) (v : Byte) : (e.takeOctet v).header = e.header := by
  unfold TransitEntry.takeOctet
  split <;> rfl

theorem TransitEntry.takeOctet_received {e : TransitEntry} (h : e.sending ≠ .abandoned) (v : Byte) :
    (e.takeOctet v).received = e.received + 1 := by
  simp [TransitEntry.takeOctet, h]

section
variable {s t : State} {f : RxFrame} {v : Byte} (hs : s.rx.state = .frame f) (ht : t.rx.state = .frame (f.push 0 v))
  (after : 8 ≤ f.count) (info : f.count < 8 + f.length) (verdict : t.verdict = s.verdict)
include hs ht after info verdict

theorem State.infoOctet_verdictTracks (h : s.verdictTracks = true) : t.verdictTracks = true := by
  rw [State.verdictTracks_of_frame hs] at h
  rw [State.verdictTracks_of_frame ht, verdict, RxFrame.push_of_info (lead := 0) (by omega) (by omega)]
  obtain ⟨h1, h2, h3, h4⟩ := h
  simp only [show (8 ≤ f.count + 1) = True from eq_true (by omega)]
  simp only [after, decide_true, if_true] at h2 h4 ⊢
  exact ⟨by omega, h2, by omega, h4⟩

/-- The arriving copy takes the octet and still agrees with the receiver (R50, R51). -/
theorem State.infoOctet_transitSound (h : TransitSound s) (ltx : t.ltx = s.ltx)
    (transit : t.transit = if s.verdict.map (fun r => r.forward) = some true then
      modifyLast TransitEntry.arriving (TransitEntry.takeOctet v) s.transit else s.transit) : TransitSound t := by
  have held := fun {d n : Nat} => State.heldOf_of_info (d := d) (n := n) hs ht after info
  rcases h.cases with rest | ⟨older, e, hl, ha, ⟨forward, some, exact⟩, sound, older_good, heads⟩
  · have same := modifyLast_of_not (p := TransitEntry.arriving) (TransitEntry.takeOctet v) (l := s.transit)
      fun e he => decide_eq_false (rest.not_arriving e he)
    rw [same, ite_self] at transit
    refine TransitAtRest.transitSound ?_
    rw [transit, ltx]
    exact rest
  · have newest : t.transit = older ++ [e.takeOctet v] := by
      rw [transit, if_pos forward, hl, modifyLast_append]
      simp [TransitEntry.arriving, ha]
    refine .of_newest newest older_good (e.takeOctet_sound sound ha v fun hn => ?_) ⟨?_, ?_, fun hn => ?_⟩ ?_
    · rw [sound.1]
      exact (held (exact hn)).2
    · rw [verdict]
      exact forward
    · obtain ⟨n, hn⟩ := Option.isSome_iff_exists.1 some
      rw [e.takeOctet_header, (held hn).1]
      rfl
    · rw [e.takeOctet_sending] at hn
      rw [e.takeOctet_header, (held (exact hn)).1, e.takeOctet_received hn]
    · simpa [ltx] using heads

/-- The arriving copy for the station takes the octet (R104). -/
theorem State.infoOctet_deliverySound (h : DeliverySound s) (ptx : t.ptx = s.ptx) (port : PortSends t)
    (delivery : t.delivery = if s.verdict.map (fun r => r.keepsCopy) = some true then
      modifyLast DeliveryEntry.arriving (DeliveryEntry.takeOctet v) s.delivery else s.delivery) : DeliverySound t := by
  rcases h.cases with rest | ⟨older, e, hl, ha, ⟨exact, keeps⟩, ⟨h1, h2, h3, h4, h5, h6⟩, older_good, heads⟩
  · have same := modifyLast_of_not (p := DeliveryEntry.arriving) (DeliveryEntry.takeOctet v) (l := s.delivery)
      fun e he => decide_eq_false (rest.not_arriving e he)
    rw [same, ite_self] at delivery
    refine DeliveryAtRest.deliverySound ?_ port
    rw [delivery, ptx]
    exact rest
  · obtain ⟨now, room⟩ := State.heldOf_of_info hs ht after info exact
    have newest : t.delivery = older ++ [e.takeOctet v] := by
      rw [delivery, if_pos keeps, hl, modifyLast_append]
      simp [DeliveryEntry.arriving, ha]
    have sound : (e.takeOctet v).Sound := by
      refine ⟨h1, by simp [DeliveryEntry.takeOctet]; omega, room, h4, fun hg => ?_, h6⟩
      rw [show (e.takeOctet v).status = e.status from rfl, ha] at hg
      cases hg
    refine .of_newest newest older_good sound ⟨now, ?_⟩ ?_ port
    · rw [verdict]
      exact keeps
    · simpa [DeliveryEntry.takeOctet, ptx] using heads

end

/-- The request that collects its octets takes one and goes on collecting (R134). -/
theorem State.infoOctet_arrivalsSound {s t : State} {v : Byte} (h : ArrivalsSound s) (verdict : t.verdict = s.verdict)
    (log : t.log = s.log)
    (requests : t.requests = if s.verdict.map (fun r => r.keepsRequest) = some true then
      s.requests.map (fun r => if r.collecting then { r with octets := r.octets ++ [v] } else r) else s.requests) :
    ArrivalsSound t := by
  have collecting : ∀ r : Request,
      (if r.collecting then { r with octets := r.octets ++ [v] } else r).collecting = r.collecting := by
    intro r
    split <;> rfl
  have same : ∀ r : Request,
      (if r.collecting then { r with octets := r.octets ++ [v] } else r).isLoop = r.isLoop ∧
        (if r.collecting then { r with octets := r.octets ++ [v] } else r).complete = r.complete := by
    intro r
    split <;> exact ⟨rfl, rfl⟩
  refine h.of_fewer verdict (by rw [log]) ?_ ?_
  · rw [requests]
    split
    · simp [List.countP_map, Function.comp_def, collecting]
    · exact Nat.le_refl _
  · obtain ⟨-, -, -, -, stations⟩ := h
    rw [requests]
    split
    · intro r hr hl
      obtain ⟨q, hq, rfl⟩ := List.mem_map.1 hr
      rw [(same q).1] at hl
      rw [(same q).2]
      exact stations q hq hl
    · exact stations

/-- An info octet reaches the blocks (R8, R50, R104, R134). -/
theorem State.infoOctet_frameSound {s : State} {f : RxFrame} (h : FrameSound s) (hs : s.rx.state = .frame f) (v : Byte)
    (after : 8 ≤ f.count) (info : f.count < 8 + f.length) (rx : LoopRx) (hrx : rx.state = .frame (f.push 0 v)) :
    FrameSound (({ s with rx := rx } : State).infoOctet v) := by
  obtain ⟨tracked, transit, delivery, arrivals⟩ := h
  have port : PortSends s := ((deliverySound_iff s).1 delivery).2.2.2.2
  rw [State.infoOctet_eq]
  exact ⟨State.infoOctet_verdictTracks hs hrx after info rfl tracked,
    State.infoOctet_transitSound hs hrx after info rfl transit rfl rfl,
    State.infoOctet_deliverySound hs hrx after info rfl delivery rfl port rfl,
    State.infoOctet_arrivalsSound arrivals rfl rfl rfl⟩

/-- An FCS octet reaches the receiver alone (R5, R11). -/
theorem State.checkOctet_frameSound {s : State} {f : RxFrame} (h : FrameSound s) (hs : s.rx.state = .frame f) (v : Byte)
    (beyond : 8 + f.length ≤ f.count) (rx : LoopRx) (hrx : rx.state = .frame (f.push 0 v)) :
    FrameSound { s with rx := rx } := by
  have push := RxFrame.push_of_check (lead := 0) (f := f) (by omega) v
  have held := State.heldOf_of_check (s := s) (t := { s with rx := rx }) hs hrx beyond
  have after : 8 ≤ f.count := by omega
  obtain ⟨tracked, transit, delivery, arrivals⟩ := h
  obtain ⟨sound, good, line, tracks⟩ := (transitSound_iff s).1 transit
  obtain ⟨sound', good', line', tracks', port⟩ := (deliverySound_iff s).1 delivery
  rw [State.verdictTracks_of_frame hs] at tracked
  simp only [after, decide_true, if_true] at tracked
  obtain ⟨started, verdict, head, declared⟩ := tracked
  refine ⟨?_, (transitSound_iff _).2 ⟨sound, good, line, fun e he ha => ?_⟩,
    (deliverySound_iff _).2 ⟨sound', good', line', fun e he ha => ?_, port⟩, arrivals⟩
  · rw [State.verdictTracks_of_frame hrx, push]
    simp only [show (8 ≤ f.count + 1) = True from eq_true (by omega), decide_true, if_true]
    exact ⟨by omega, verdict, by omega, declared⟩
  · unfold TransitEntry.Tracks
    rw [held]
    exact tracks e he ha
  · unfold DeliveryEntry.Tracks
    rw [held]
    exact tracks' e he ha

/-! ### The header (R7, R30 to R40) -/

theorem State.keepsFrame_reserveDelivery (s : State) (h : Header) (label : Option Byte) :
    s.KeepsFrame { (s.reserveDelivery h label).2 with delivery := s.delivery } := by
  unfold State.reserveDelivery
  split
  · exact .of_framePart rfl
  · exact { State.KeepsFrame.refl s with record := fun h hp => by simp [h hp] }

theorem State.keepsFrame_hitMatched (s : State) (f : Finding) : s.KeepsFrame (s.hitMatched f) := by
  obtain ⟨_, h, -⟩ := s.hitMatched_frame f
  rw [h]
  exact .of_framePart rfl

/-- A new transit entry's figures (R47, R51). -/
theorem TransitEntry.start_sound (h : Header) (marks : Option Mark) : (TransitEntry.start h marks).Sound := by
  unfold TransitEntry.start TransitEntry.Sound Header.rewrite
  by_cases hd : h.declared = 0
  · simp [hd]
  · simp [hd]
    omega

theorem DeliveryEntry.start_sound (h : Header) : (DeliveryEntry.start h).Sound := by
  simp [DeliveryEntry.start, DeliveryEntry.Sound]

/-- The receiver stands at the eighth octet of a frame of this declared length. -/
def State.AtHeader (s : State) (declared : Nat) : Prop :=
  ∃ f : RxFrame, s.rx.state = .frame f ∧ f.count = 8 ∧ f.head.length = 8 ∧ f.declared = some declared ∧
    declared = declaredIn 0 f.head

theorem State.AtHeader.heldOf {s : State} {d : Nat} (h : s.AtHeader d) : s.heldOf d = some 8 := by
  obtain ⟨f, hf, hc, -, hd, -⟩ := h
  simp [State.heldOf, hf, RxState.frame?, hc, hd]

theorem State.AtHeader.verdictTracks {s : State} {d : Nat} (h : s.AtHeader d) (hv : s.verdict.isSome = true) :
    s.verdictTracks = true := by
  obtain ⟨f, hf, hc, hl, hd, he⟩ := h
  rw [State.verdictTracks_of_frame hf, hc, hl, hd, he, hv]
  simp

/-- A forward verdict's frame joins the transit queue, or is refused there. -/
theorem State.reserveTransit_frameSound {u : State} {h : Header} {r : VerdictRecord} (at_header : u.AtHeader h.declared)
    (forward : r.forward = true) (transit : TransitAtRest u.transit u.ltx)
    (delivery : DeliverySound { u with verdict := some r }) (arrivals : ArrivalsSound { u with verdict := some r })
    (marks : Option Mark) : FrameSound { u.reserveTransit h marks with verdict := some r } := by
  have k : ({ u with verdict := some r } : State).KeepsFrame
      { u.reserveTransit h marks with transit := u.transit, verdict := some r } := by
    unfold State.reserveTransit
    split
    · exact .of_framePart rfl
    · exact { State.KeepsFrame.refl ({ u with verdict := some r }) with record := fun h hp => by simp [h hp] }
  have same : ({ u.reserveTransit h marks with verdict := some r } : State).rx.state = u.rx.state := k.rx
  refine ⟨?_, ?_, k.deliverySound delivery, k.arrivalsSound arrivals⟩
  · obtain ⟨f, hf, hl⟩ := at_header
    exact State.AtHeader.verdictTracks (d := h.declared) ⟨f, same.trans hf, hl⟩ rfl
  · have line : ({ u.reserveTransit h marks with verdict := some r } : State).ltx = .forwarding ↔ u.ltx = .forwarding :=
      k.forwarding
    by_cases room : u.transitRoom h.declared = true
    · have joins : (u.reserveTransit h marks).transit = u.transit ++ [TransitEntry.start h marks] := by
        simp [State.reserveTransit, room]
      have held := at_header.heldOf
      refine .of_newest joins transit.1 (TransitEntry.start_sound h marks) ?_ ?_
      · refine ⟨by simp [forward], ?_, fun _ => ?_⟩
        · rw [State.heldOf_congr same]
          exact Option.isSome_iff_exists.2 ⟨8, held⟩
        · rw [State.heldOf_congr same]
          exact held
      · rw [List.map_append, List.map_singleton]
        exact (transit.2.congr_line line).append_idle (by decide)
    · have stays : (u.reserveTransit h marks).transit = u.transit := by
        simp [State.reserveTransit, room]
      refine TransitAtRest.transitSound ⟨?_, ?_⟩
      · dsimp only
        rw [stays]
        exact transit.1
      · dsimp only
        rw [stays]
        exact transit.2.congr_line line

/-- A frame offered to the delivery store: its copy joins there, under a verdict that keeps it, or is refused. -/
theorem State.reserveDelivery_deliverySound {u : State} {h : Header} {r : VerdictRecord} {label : Option Byte}
    (at_header : u.AtHeader h.declared) (kept : (u.reserveDelivery h label).1 = .kept → r.keepsCopy = true)
    (delivery : DeliveryAtRest u.delivery u.ptx) (port : PortSends u) :
    DeliverySound { (u.reserveDelivery h label).2 with verdict := some r } := by
  have k := u.keepsFrame_reserveDelivery h label
  have port' : PortSends { (u.reserveDelivery h label).2 with verdict := some r } := k.portSends port
  have same : ({ (u.reserveDelivery h label).2 with verdict := some r } : State).rx.state = u.rx.state := k.rx
  by_cases room : u.deliveryRoom h.declared = true
  · have joins : (u.reserveDelivery h label).2.delivery = u.delivery ++ [DeliveryEntry.start h] := by
      simp [State.reserveDelivery, room]
    have keeps := kept (by simp [State.reserveDelivery, room])
    refine .of_newest joins delivery.1 (DeliveryEntry.start_sound h) ⟨?_, by simp [keeps]⟩ ?_ port'
    · rw [State.heldOf_congr same]
      exact at_header.heldOf
    · rw [List.map_append, List.map_singleton]
      exact (delivery.2.congr_line k.delivering).append_idle (by decide)
  · have stays : (u.reserveDelivery h label).2.delivery = u.delivery := by
      simp [State.reserveDelivery, room]
    refine DeliveryAtRest.deliverySound ⟨?_, ?_⟩ port'
    · dsimp only
      rw [stays]
      exact delivery.1
    · dsimp only
      rw [stays]
      exact delivery.2.congr_line k.delivering

/-- An offered request joins incomplete, under a verdict that keeps it, or is dropped. -/
theorem State.offerRequest_arrivalsSound {u : State} {sa : Address} {r : VerdictRecord}
    (kept : (u.offerRequest sa).1 = .kept → r.keepsRequest = true) (arrivals : ArrivalsAtRest u.log u.requests) :
    ArrivalsSound { (u.offerRequest sa).2 with verdict := some r } := by
  unfold State.offerRequest at kept ⊢
  split
  · rename_i room
    have keeps := kept (by simp [room])
    obtain ⟨-, strip, -⟩ := ArrivalsAtRest.arrivalsSound (s := u) arrivals
    obtain ⟨log, requests⟩ := arrivals
    have none : u.requests.filter (fun r => r.collecting) = [] :=
      List.filter_eq_nil_iff.2 fun q hq => by simp [Request.collecting_eq_false (requests q hq)]
    have noReturning : u.log.filter (fun e => !e.isOutstanding) = [] :=
      List.filter_eq_nil_iff.2 fun e he => by simp [log e he]
    refine ⟨by simp [noReturning], fun ha => ?_, ?_, fun _ => by simp [keeps], ?_⟩
    · obtain ⟨e, he, ho⟩ := List.any_eq_true.1 ha
      simp [log e he] at ho
    · rw [List.filter_append, none, List.nil_append]
      exact List.length_filter_le _ _
    · exact List.forall_mem_append.2 ⟨fun q hq _ => requests q hq, by simp [Request.isLoop]⟩
  · exact ArrivalsAtRest.arrivalsSound arrivals

theorem splitMatch_some {h : Header} {log older newer : List LogEntry} {e : LogEntry}
    (hm : splitMatch h log = some (older, e, newer)) : log = older ++ e :: newer := by
  induction log generalizing older with
  | nil => cases hm
  | cons a log ih =>
    unfold splitMatch at hm
    split at hm
    · cases hm
      rfl
    · obtain ⟨⟨o, x, n⟩, hs, hp⟩ := Option.map_eq_some_iff.1 hm
      cases hp
      rw [ih hs]
      rfl

/-- A STRIP header makes one entry RETURNING, where all were OUTSTANDING (R86). -/
theorem State.stripHeader_frameSound {u : State} {h : Header} {r : VerdictRecord} (at_header : u.AtHeader h.declared)
    (strip : r.verdict = .strip) (rest : BlocksAtRest u) : FrameSound { u.stripHeader h with verdict := some r } := by
  unfold State.stripHeader
  split
  · have rest' : BlocksAtRest { u.count .stray with verdict := some r } := rest
    exact rest'.frameSound (State.AtHeader.verdictTracks at_header rfl)
  · rename_i older e newer hm
    have hl := splitMatch_some hm
    have k := u.keepsFrame_closeLost (older.filter (fun x => x.isOutstanding))
    obtain ⟨transit, ⟨delivery, port⟩, log, requests⟩ := k.blocksAtRest rest
    have all : ∀ x ∈ older ++ e :: newer, x.isOutstanding = true := hl ▸ log
    have noneOlder : older.filter (fun x => !x.isOutstanding) = [] :=
      List.filter_eq_nil_iff.2 fun x hx => by simp [all x (by simp [hx])]
    have noneNewer : newer.filter (fun x => !x.isOutstanding) = [] :=
      List.filter_eq_nil_iff.2 fun x hx => by simp [all x (by simp [hx])]
    have noCollecting : u.requests.filter (fun q => q.collecting) = [] :=
      List.filter_eq_nil_iff.2 fun q hq => by simp [Request.collecting_eq_false (requests q hq)]
    refine ⟨State.AtHeader.verdictTracks at_header rfl, TransitAtRest.transitSound transit,
      DeliveryAtRest.deliverySound delivery port, ?_, fun _ => by simp [strip], ?_, fun ha => ?_,
      fun q hq _ => requests q hq⟩
    · dsimp only
      rw [noneOlder, List.nil_append, List.filter_cons_of_pos rfl, noneNewer]
      exact Nat.le_refl 1
    · dsimp only
      rw [show (u.closeLost (older.filter (fun x => x.isOutstanding))).requests = u.requests from rfl, noCollecting]
      simp
    · obtain ⟨q, hq, hc⟩ := List.any_eq_true.1 ha
      simp [Request.collecting_eq_false (requests q hq)] at hc

/-- The header-complete event finds every block at rest and gives it its part of the frame (R30, R40). -/
theorem State.judgeHeader_frameSound {s : State} {h : Header} (at_header : s.AtHeader h.declared)
    (rest : BlocksAtRest s) (f : Finding) : FrameSound (s.judgeHeader h f) := by
  have hit := s.keepsFrame_hitMatched f
  have rest' := hit.blocksAtRest rest
  have at_header' : (s.hitMatched f).AtHeader h.declared := by
    obtain ⟨x, hx, hl⟩ := at_header
    exact ⟨x, hit.rx.trans hx, hl⟩
  have absorbed : ∀ (u : State) (v : VerdictRecord), s.KeepsFrame u →
      FrameSound { u with verdict := some v } := by
    intro u v k
    have at_rest : BlocksAtRest { u with verdict := some v } := k.blocksAtRest rest
    obtain ⟨x, hx, hl⟩ := at_header
    exact at_rest.frameSound (State.AtHeader.verdictTracks (d := h.declared) ⟨x, k.rx.trans hx, hl⟩ rfl)
  unfold State.judgeHeader
  dsimp only
  split
  · exact absorbed _ _ (s.keepsFrame_count _)
  · exact State.stripHeader_frameSound at_header rfl rest
  · exact absorbed _ _ ((s.keepsFrame_count _).trans (State.keepsFrame_raise _ _ _))
  · obtain ⟨transit, ⟨delivery, port⟩, arrivals⟩ := rest
    have offered := State.offerRequest_arrivalsSound (sa := h.sa)
      (r := VerdictRecord.managed (s.offerRequest h.sa).1)
      (fun hk => by simp [VerdictRecord.keepsRequest, VerdictRecord.managed, hk]) arrivals
    obtain ⟨_, _, e⟩ := s.offerRequest_frame h.sa
    refine State.reserveTransit_frameSound (r := VerdictRecord.managed (s.offerRequest h.sa).1) ?_ rfl ?_ ?_ offered _
    · rw [e]
      exact at_header
    · rw [e]
      exact transit
    · rw [e]
      exact DeliveryAtRest.deliverySound delivery port
  · obtain ⟨transit, ⟨delivery, port⟩, arrivals⟩ := rest'
    exact State.reserveTransit_frameSound at_header' rfl transit (DeliveryAtRest.deliverySound delivery port)
      (ArrivalsAtRest.arrivalsSound arrivals) _
  · obtain ⟨transit, ⟨delivery, port⟩, arrivals⟩ := rest'
    generalize hl : (s.matched f).map (fun x => x.rule.label) = label
    generalize hr : VerdictRecord.copied (s.matched f) ((s.hitMatched f).reserveDelivery h label).1 = r
    have copied := State.reserveDelivery_deliverySound (r := r) (label := label) at_header'
      (fun hk => by rw [← hr, hk]; rfl) delivery port
    obtain ⟨_, _, _, _, e⟩ := (s.hitMatched f).reserveDelivery_frame h label
    refine State.reserveTransit_frameSound ?_ (by rw [← hr]; rfl) ?_ copied ?_ _
    · rw [e]
      exact at_header'
    · rw [e]
      exact transit
    · rw [e]
      exact ArrivalsAtRest.arrivalsSound arrivals
  · exact absorbed _ _ (hit.trans (State.keepsFrame_count _ _))

end Sys2Proof.Machine
end

section
/-! The agreement of receiver, verdict and blocks over every command and step. -/

namespace Sys2Proof.Machine

/-! ### The loop receive line -/

/-- An octet in FRAME: one of the header, the header's last, info, FCS, or excess (R5, R7, R8, R13). -/
theorem State.loopOctet_frameSound_of_frame {s : State} {f : RxFrame} (h : FrameSound s) (hf : s.rx.state = .frame f)
    (v : Byte) (rest : List Bool) : FrameSound (s.loopOctet v rest) := by
  obtain ⟨started, verdict, head, declared⟩ := (State.verdictTracks_of_frame hf).1 h.1
  rcases Nat.lt_or_ge f.count 8 with early | after
  · have noVerdict : s.verdict = none := by simpa [Nat.not_le.2 early] using verdict
    rw [if_neg (Nat.not_le.2 early)] at declared
    by_cases last : f.count = 7
    · have push := RxFrame.push_of_last (lead := 0) (f := f) (by omega) v
      rw [State.loopOctet_of_last hf v rest last]
      have at_header : State.AtHeader { s with rx := ⟨.frame (f.push 0 v), 0, rest⟩ }
          (Header.ofOctets 0 (f.head ++ [v])).declared := by
        refine ⟨f.push 0 v, rfl, by rw [push, last], by simp [push, head, last], ?_, ?_⟩
        · rw [push]
          rfl
        · rw [push]
          rfl
      exact State.judgeHeader_frameSound at_header (h.blocksAtRest noVerdict) _
    · rw [State.loopOctet_of_header hf v rest (by omega)]
      refine h.of_rx noVerdict ⟨.frame (f.push 0 v), 0, rest⟩ s.sup ?_
      rw [State.verdictTracks_of_frame (f := f.push 0 v) rfl, RxFrame.push_of_header (by omega)]
      simp [noVerdict, head, declared]
      omega
  · rcases Nat.lt_or_ge f.count (8 + f.length) with info | beyond
    · rw [State.loopOctet_of_info hf v rest after info]
      exact State.infoOctet_frameSound h hf v after info _ rfl
    · by_cases excess : f.count = 8 + f.length + 2
      · rw [State.loopOctet_of_excess hf v rest excess]
        exact h.frameEnd (fun hc => by cases hc) _ _ rfl
      · rw [State.loopOctet_of_check hf v rest beyond excess]
        exact State.checkOctet_frameSound h hf v beyond _ rfl

theorem State.loopOctet_frameSound {s : State} (h : FrameSound s) (v : Byte) (rest : List Bool) :
    FrameSound (s.loopOctet v rest) := by
  cases hs : s.rx.state with
  | hunt =>
    rw [State.loopOctet_of_hunt hs]
    have noVerdict := h.verdict_of_no_frame (by rw [hs]; rfl)
    exact h.of_rx noVerdict ⟨.hunt, 0, []⟩ s.sup (State.verdictTracks_of_no_frame rfl noVerdict)
  | fill =>
    rw [State.loopOctet_of_fill hs]
    have noVerdict := h.verdict_of_no_frame (by rw [hs]; rfl)
    refine h.of_rx noVerdict ⟨.frame (RxFrame.empty.push 0 v), 0, rest⟩ s.sup ?_
    rw [State.verdictTracks_of_frame (f := RxFrame.empty.push 0 v) rfl,
      RxFrame.push_of_header (by simp [RxFrame.empty])]
    simp [noVerdict, RxFrame.empty]
  | frame f => exact State.loopOctet_frameSound_of_frame h hs v rest

theorem State.loopFlag_frameSound {s : State} (h : FrameSound s) (tail : List Bool) : FrameSound (s.loopFlag tail) := by
  unfold State.loopFlag State.flagEnds
  cases hs : s.rx.state.frame? with
  | none =>
    refine (State.keepsFrame_superviseFlag _ _).frameSound ?_
    have noVerdict := h.verdict_of_no_frame hs
    exact h.of_rx noVerdict ⟨.fill, 0, []⟩ s.sup (State.verdictTracks_of_no_frame rfl noVerdict)
  | some f =>
    have hf : s.rx.state = .frame f := by
      cases hr : s.rx.state with
      | hunt => simp [hr, RxState.frame?] at hs
      | fill => simp [hr, RxState.frame?] at hs
      | frame g =>
        rw [hr] at hs
        rw [Option.some.inj hs]
    refine (State.keepsFrame_superviseFlag _ _).frameSound ?_
    exact h.frameEnd (fun hc => State.whole_of_judge_good hf hc) ⟨.fill, 0, []⟩ _ rfl

/-- The receiver leaves whatever it was in for HUNT; a frame ends ABORTED (R14). -/
theorem State.abortFrame_frameSound {s : State} (h : FrameSound s) (reason : AbortReason) (rx : LoopRx)
    (sup : Supervisor) (left : rx.state.frame? = none) :
    FrameSound { s.abortFrame reason with rx := rx, sup := sup } := by
  unfold State.abortFrame
  split
  · exact h.frameEnd (fun hc => by cases hc) rx sup left
  · rename_i notFrame
    have noVerdict : s.verdict = none := h.verdict_of_no_frame (by
      cases hr : s.rx.state with
      | hunt => rfl
      | fill => rfl
      | frame f => exact absurd hr (notFrame f))
    exact h.of_rx noVerdict rx sup (State.verdictTracks_of_no_frame left noVerdict)

theorem State.loopOnes_frameSound {s : State} (h : FrameSound s) (run : Nat) : FrameSound (s.loopOnes run) :=
  State.abortFrame_frameSound h .abort ⟨.hunt, run, []⟩ _ rfl

theorem State.silence_frameSound {s : State} (h : FrameSound s) : FrameSound s.silence := by
  unfold State.silence
  split
  · exact State.abortFrame_frameSound ((s.keepsFrame_raise _ _).frameSound h) .silence (LoopRx.toHunt _) _ rfl
  · exact h

/-! ### The end of an event -/

theorem State.afterWrite_frameSound {s : State} (h : FrameSound s) (p : Param) : FrameSound (s.afterWrite p) := by
  unfold State.afterWrite
  split
  · exact s.keepsFrame_expireLog.frameSound h
  · exact s.keepsFrame_expireSession.frameSound h
  · exact State.silence_frameSound h
  · exact h

/-- A parameter is no part of a frame. -/
theorem State.keepsFrame_params (s : State) (ps : Params) : s.KeepsFrame { s with params := ps } := .of_framePart rfl

theorem State.runParamWrite_frameSound {s : State} (h : FrameSound s) (r : Request) :
    FrameSound (State.runParamWrite r s).1 := by
  unfold State.runParamWrite
  split
  · unfold State.ifAuthorized
    split
    · unfold State.writeParam
      split
      · exact h
      · split
        · exact h
        · exact State.afterWrite_frameSound ((s.keepsFrame_params _).frameSound h) _
    · exact h
  · exact h

/-- The port's part of a RESTART, and the request queue it leaves, write no frame's part. -/
theorem State.keepsFrame_restartPort (s : State) (frames : Nat) (queue : List Request) :
    ({ s with requests := queue } : State).KeepsFrame
      { s.restartPort frames with requests := queue, session := none } := by
  obtain ⟨rx, verdict, transit, forwarding, delivery, delivering, record, reply, returning, -, -⟩ :=
    State.keepsFrame_causeStatus { s with flushed := saturate (s.flushed + frames) }
  exact ⟨rx, verdict, transit, forwarding, delivery, delivering, record, reply, returning, Nat.le_refl _, id⟩

theorem State.keepsFrame_restartNotices (s : State) (who : Requester) : s.KeepsFrame (s.restartNotices who) :=
  { State.KeepsFrame.refl s with
    record := fun h hp => by simp [State.restartNotices, h hp] }

/-- RESTART empties every block but the station port's report queue and reply slot (R153). -/
theorem State.restart_frameSound {s : State} (h : FrameSound s) {r : Request} (complete : r.complete = true) :
    FrameSound (s.restart r) := by
  obtain ⟨-, -, delivery, -⟩ := h
  have port : PortSends s := ((deliverySound_iff s).1 delivery).2.2.2.2
  have stops : s.ptx.abortDelivery ≠ .delivery ∧ (s.ptx.abortDelivery = .record → s.ptx = .record) ∧
      (s.ptx.abortDelivery = .reply → s.ptx = .reply) := by
    cases s.ptx <;> simp [PortTx.abortDelivery]
  obtain ⟨notDelivery, record, reply⟩ := stops
  have aborted : s.ltx.abort ≠ .forwarding := by
    cases s.ltx <;> simp [LoopTx.abort]
  have emptied : BlocksAtRest { s.restartLoop.restartQueues.flushLog with requests := [r] } :=
    ⟨⟨by simp [State.flushLog, State.restartQueues, State.restartLoop], .nil aborted⟩,
      ⟨⟨by simp [State.flushLog, State.restartQueues], .nil notDelivery⟩,
        fun hp => List.append_ne_nil_of_left_ne_nil (port.1 (record hp)) _, fun hp => port.2 (reply hp)⟩,
      by simp [State.flushLog], by simpa using complete⟩
  have k := (State.keepsFrame_restartPort s.restartLoop.restartQueues.flushLog
    (s.urgent.length + s.normal.length) [r]).trans (State.keepsFrame_restartNotices _ r.source)
  exact (k.blocksAtRest emptied).frameSound (State.verdictTracks_of_no_frame (by rw [k.rx]; rfl) k.verdict)

theorem State.runOf_frameSound {s : State} (h : FrameSound s) {r : Request} (complete : r.complete = true)
    (c : Option Command) : FrameSound (State.runOf c r s).1 := by
  cases c with
  | none => exact h
  | some c =>
    cases hc : c.reachesReceiver with
    | false => exact (State.keepsFrame_runOf hc r s).frameSound h
    | true =>
      cases c with
      | paramWrite => exact State.runParamWrite_frameSound h r
      | restart =>
        show FrameSound (s.ifAuthorized r.source (s.restart r, .ok [])).1
        unfold State.ifAuthorized
        split
        · exact State.restart_frameSound h complete
        · exact h
      | _ => cases hc

theorem State.carry_frameSound {s : State} (h : FrameSound s) {r : Request} (complete : r.complete = true)
    (c : Option Command) : FrameSound (s.carry r (State.runOf c)) :=
  (State.keepsFrame_reply _ _ _).frameSound (State.runOf_frameSound h complete c)

theorem State.engine_frameSound {s : State} (h : FrameSound s) : FrameSound s.engine := by
  have upTo : ∀ (n : Nat) (s : State), FrameSound s → FrameSound (State.carryOutUpTo n s) := by
    intro n
    induction n with
    | zero => exact fun s h => h
    | succ n ih =>
      intro s h
      unfold State.carryOutUpTo
      split
      · rename_i r hr
        obtain ⟨-, -, complete, -⟩ := State.readyHead_some hr
        exact ih _ (State.carry_frameSound h complete _)
      · exact h
  exact upTo _ _ h

/-- What an event ends with keeps the agreement. -/
theorem State.settle_frameSound {s : State} (h : FrameSound s) : FrameSound s.settle :=
  (State.keepsFrame_placeNotices _).frameSound (State.engine_frameSound h)

theorem State.serve_frameSound {s : State} (h : FrameSound s) (c : Option Command) :
    FrameSound (s.serve c (State.runOf c)) := by
  rcases s.serve_cases c (State.runOf c) with same | ⟨r, hr, -, ran⟩
  · rw [same]
    exact h
  · rw [ran]
    obtain ⟨-, -, complete, -⟩ := State.readyHead_some hr
    exact State.carry_frameSound h complete c

/-! ### Every command -/

theorem State.event_frameSound {s t : State} {f : State → State} (hn : s.event f = .next t) (h : FrameSound s)
    (keeps : FrameSound (f s)) : FrameSound t := by
  rcases State.event_next hn with ⟨-, same⟩ | ⟨-, after⟩
  · rw [same]
    exact h
  · rw [after]
    exact State.settle_frameSound keeps

theorem State.running_frameSound {s t : State} {f : State → State} (hn : s.running f = .next t) (h : FrameSound s)
    (keeps : FrameSound (f s)) : FrameSound t := by
  rcases State.running_next hn with ⟨-, same⟩ | ⟨-, after⟩
  · rw [same]
    exact h
  · rw [after]
    exact keeps

/-- The power-on state holds nothing of a frame (R20, R45, R99). -/
theorem State.powerOn_frameSound (s : State) (rx : s.rx.state = .hunt) (verdict : s.verdict = none)
    (blocks : s.transit = [] ∧ s.ltx = .idle ∧ s.delivery = [] ∧ s.ptx = .idle ∧ s.log = [] ∧ s.requests = []) :
    FrameSound s := by
  obtain ⟨transit, ltx, delivery, ptx, log, requests⟩ := blocks
  refine BlocksAtRest.frameSound ⟨⟨by simp [transit], ?_⟩, ⟨⟨by simp [delivery], ?_⟩, by simp [PortSends, ptx]⟩,
    by simp [log], by simp [requests]⟩ (State.verdictTracks_of_no_frame (by rw [rx]; rfl) verdict)
  · rw [transit]
    exact .nil (by simp [ltx])
  · rw [delivery]
    exact .nil (by simp [ptx])

/-- Every command keeps what receiver, verdict and blocks hold of the arriving frame in agreement. -/
theorem exec_frameSound {s t : State} (h : FrameSound s) (c : Instr) (hn : exec c s = .next t) : FrameSound t := by
  have served : ∀ c : Option Command, s.event (fun s => s.serve c (State.runOf c)) = .next t → FrameSound t :=
    fun c hn => State.event_frameSound hn h (State.serve_frameSound h c)
  unfold exec at hn
  cases c with
  | powerOnReset g m =>
    obtain rfl := Host.Outcome.next.inj hn
    exact State.powerOn_frameSound _ rfl rfl ⟨rfl, rfl, rfl, rfl, rfl, rfl⟩
  | powerOnResetAssert =>
    obtain rfl := Host.Outcome.next.inj hn
    exact State.powerOn_frameSound _ rfl rfl ⟨rfl, rfl, rfl, rfl, rfl, rfl⟩
  | loopFlag tail n =>
    exact State.event_frameSound hn h (State.loopFlag_frameSound (State.octetTimes_frameSound h n) tail)
  | loopOctet v rest n =>
    exact State.event_frameSound hn h (State.loopOctet_frameSound (State.octetTimes_frameSound h n) v rest)
  | loopAbort => exact State.event_frameSound hn h (State.loopOnes_frameSound h 7)
  | lineIdle => exact State.event_frameSound hn h (State.loopOnes_frameSound h 15)
  | lineSilenceDeadline => exact State.event_frameSound hn h (State.silence_frameSound h)
  | arbiterChoice => exact State.event_frameSound hn h (State.arbitrate_frameSound h)
  | underrun n => exact State.event_frameSound hn h (State.underrun_frameSound (State.octetTimes_frameSound h n))
  | forwardComplete => exact State.running_frameSound hn h (State.completeForward_frameSound h)
  | insertionEnd => exact State.running_frameSound hn h (s.keepsFrame_endInsertion.frameSound h)
  | abortComplete => exact State.running_frameSound hn h (s.keepsFrame_completeAbort.frameSound h)
  | returnTimeoutExpiry => exact State.running_frameSound hn h (s.keepsFrame_expireLog.frameSound h)
  | portBreak bits => exact State.event_frameSound hn h (State.startBreak_frameSound h bits)
  | portBreakEnd => exact State.running_frameSound hn h (s.keepsFrame_endBreak.frameSound h)
  | stationFrameGood => exact State.event_frameSound hn h (s.keepsFrame_stationGood.frameSound h)
  | stationFrameDiscard how => exact State.event_frameSound hn h (State.stationDiscard_frameSound h how)
  | portTxChoice => exact State.running_frameSound hn h (State.portChoice_frameSound h)
  | portReportSent => exact State.event_frameSound hn h (State.reportSent_frameSound h)
  | portTxAbortComplete => exact State.running_frameSound hn h (s.keepsFrame_portAbortSent.frameSound h)
  | badCommand => exact served none hn
  | status => exact served (some .status) hn
  | paramRead => exact served (some .paramRead) hn
  | paramWrite => exact served (some .paramWrite) hn
  | listRead => exact served (some .listRead) hn
  | listWrite => exact served (some .listWrite) hn
  | tableRead => exact served (some .tableRead) hn
  | countersRead => exact served (some .countersRead) hn
  | sessionOpen => exact served (some .sessionOpen) hn
  | entryInsert => exact served (some .entryInsert) hn
  | entryReplace => exact served (some .entryReplace) hn
  | entryRemove => exact served (some .entryRemove) hn
  | sessionCommit => exact served (some .sessionCommit) hn
  | sessionDiscard => exact served (some .sessionDiscard) hn
  | noticeAck => exact served (some .noticeAck) hn
  | restart => exact served (some .restart) hn
  | sessionTimeoutExpiry => exact State.event_frameSound hn h (s.keepsFrame_expireSession.frameSound h)
  | noticeFirstSend =>
    exact State.event_frameSound hn h ((State.keepsFrame_sendFirst _).frameSound (State.engine_frameSound h))
  | noticeRetryDeadline k => exact State.event_frameSound hn h ((s.keepsFrame_retryDeadline k).frameSound h)
  | noticeResend =>
    exact State.event_frameSound hn h
      (((State.keepsFrame_sendFirst _).trans (State.keepsFrame_resendWaiting _)).frameSound (State.engine_frameSound h))
  | stationFlag tail => exact State.running_frameSound hn h (s.keepsFrame_stationFlag.frameSound h)
  | stationOctet v rest => exact State.event_frameSound hn h (State.stationOctet_frameSound h v rest)
  | stationAbort idle => exact State.running_frameSound hn h ((s.keepsFrame_stationAbort idle).frameSound h)

/-- The queue of commands is no part of a frame. -/
theorem State.keepsFrame_pending (s : State) (x : List Instr) : s.KeepsFrame { s with pending := x } :=
  .of_framePart rfl

theorem State.keepsFrame_tick (s : State) : s.KeepsFrame s.tick := by
  unfold State.tick
  split <;> exact .of_framePart rfl

/-- Settles O59: each command keeps the agreement, and so does a millisecond. -/
theorem stepKeepsFrameSound : Obligations.StepKeepsFrameSound := by
  intro s t h hn
  unfold step at hn
  split at hn
  · obtain rfl := Host.Outcome.next.inj hn
    exact s.keepsFrame_tick.frameSound h
  · exact exec_frameSound ((s.keepsFrame_pending _).frameSound h) _ hn

end Sys2Proof.Machine
end

section
/-! The queue of commands, reset, and the deadlines of line and session. -/

namespace Sys2Proof.Machine

/-! ### The queue of commands and power-on reset -/

/-- Settles O1. -/
theorem stepRunsFrontCommand : Obligations.StepRunsFrontCommand := by
  refine ⟨fun c rest s => rfl, fun s hs => ⟨fun hr => ?_, fun hr => ?_⟩⟩
  · simp [step, hs, State.tick, hr]
  · simp [step, hs, State.tick, hr]

/-- The identity list of the straps (R22, R23). -/
theorem identityOf_eq (g m : Byte) :
    identityOf ⟨g, m⟩ =
      if g = 0 ∨ g = 255 ∨ m = 0 ∨ m = 255 then #v[none, none, none, none] else #v[some ⟨g, m⟩, none, none, none] := by
  unfold identityOf modeOf
  split <;> simp_all

/-- Settles O2: the part after release is `State.powerOn` of the straps, with the queue as it was. -/
theorem powerOnResetSetsThePart : Obligations.PowerOnResetSetsThePart := by
  intro g m s
  have counters : ∀ c : Counter, (State.powerOn g m).counter c = 0 := by
    intro c
    cases c <;> rfl
  have managers : ∀ i : Fin 4, (State.powerOn g m).managers.get i = none := by
    intro i
    fin_cases i <;> rfl
  have slots : ∀ k, k ≠ .started → (State.powerOn g m).slot k = .idle := by
    intro k hk
    cases k with
    | started => exact absurd rfl hk
    | _ => rfl
  refine ⟨{ State.powerOn g m with pending := s.pending }, rfl, rfl, rfl, identityOf_eq g m, ?_⟩
  exact ⟨rfl, rfl, rfl, rfl, rfl, rfl, rfl, rfl, rfl, rfl, rfl, rfl, rfl, rfl, rfl, rfl, rfl, rfl, rfl, rfl, rfl, rfl,
    rfl, rfl, rfl, rfl, rfl, rfl, rfl, rfl, managers, counters, rfl, slots, rfl, rfl, rfl⟩

/-- Settles O60, each invariant at its own figures of the power-on state. -/
theorem resetSatisfiesInvariants : Obligations.ResetSatisfiesInvariants := by
  have settled : Settled State.reset := by
    refine ⟨rfl, fun h => absurd ?_ h, fun h => ?_⟩
    · decide
    · exact absurd h (by decide)
  have identity : ∀ i j : Fin 4, i ≠ j → State.reset.identity.get i ≠ none →
      State.reset.identity.get i ≠ State.reset.identity.get j := by decide
  have managers : ∀ i j : Fin 4, i ≠ j → State.reset.managers.get i ≠ none →
      State.reset.managers.get i ≠ State.reset.managers.get j := by decide
  exact ⟨by decide, by decide, by decide, by decide, ⟨⟨rfl, fun _ => rfl, fun h => (nomatch h)⟩, identity, managers⟩,
    fun h => (nomatch h), by decide, fun h => (nomatch h), settled, by decide,
    State.powerOn_frameSound _ rfl rfl ⟨rfl, rfl, rfl, rfl, rfl, rfl⟩⟩

/-! ### The session deadline (R170) -/

theorem deadlineReached_iff (now start : Word32) (interval : Nat) :
    deadlineReached now start interval = true ↔ interval ≤ (now - start).toNat := decide_eq_true_iff

/-- Settles O46. -/
theorem sessionExpires : Obligations.SessionExpires := by
  intro s hr
  have run : exec .sessionTimeoutExpiry s = .next s.expireSession.settle := State.event_of_released _ hr
  rw [run]
  refine ⟨fun hs => ?_, fun x hs => ⟨fun early => ?_, fun due => ?_⟩⟩
  · rw [State.expireSession, hs]
  · have notDue := mt (deadlineReached_iff s.timer x.lastCommand s.params.sessionTimeout).1 (Nat.not_le.2 early)
    simp only [State.expireSession, hs, if_neg notDue]
  · have reached := (deadlineReached_iff s.timer x.lastCommand s.params.sessionTimeout).2 due
    simp only [State.expireSession, hs, if_pos reached]
    cases x.owner <;> rfl

end Sys2Proof.Machine
end

section
/-! The loop receive line, command by command: octets by the receiver's state, flags, ones and the silence deadline. -/

namespace Sys2Proof.Machine

/-! ### The commands as the receiver's operations -/

theorem exec_loopOctet_eq (v : Byte) (rest : List Bool) (times : Nat) (s : State) :
    exec (.loopOctet v rest times) s = s.event (fun s => (s.octetTimes times).loopOctet v rest) := rfl

theorem exec_loopFlag_eq (tail : List Bool) (times : Nat) (s : State) :
    exec (.loopFlag tail times) s = s.event (fun s => (s.octetTimes times).loopFlag tail) := rfl

theorem exec_loopAbort_eq (s : State) : exec .loopAbort s = s.event (fun s => s.loopOnes 7) := rfl

theorem exec_lineIdle_eq (s : State) : exec .lineIdle s = s.event (fun s => s.loopOnes 15) := rfl

section
variable {s : State} (hr : s.resetAsserted = false)
include hr

theorem exec_loopOctet (v : Byte) (rest : List Bool) (times : Nat) :
    exec (.loopOctet v rest times) s = .next ((s.octetTimes times).loopOctet v rest).settle := by
  rw [exec_loopOctet_eq, State.event_of_released _ hr]

theorem exec_loopFlag (tail : List Bool) (times : Nat) :
    exec (.loopFlag tail times) s = .next ((s.octetTimes times).loopFlag tail).settle := by
  rw [exec_loopFlag_eq, State.event_of_released _ hr]

end

@[simp] theorem State.octetTimes_rx (n : Nat) (s : State) : (s.octetTimes n).rx = s.rx := by
  obtain ⟨_, h⟩ := s.octetTimes_frame n
  rw [h]

@[simp] theorem State.octetTimes_sup (n : Nat) (s : State) : (s.octetTimes n).sup = s.sup := by
  obtain ⟨_, h⟩ := s.octetTimes_frame n
  rw [h]

@[simp] theorem State.octetTimes_timer (n : Nat) (s : State) : (s.octetTimes n).timer = s.timer := by
  obtain ⟨_, h⟩ := s.octetTimes_frame n
  rw [h]

/-! ### Flags (R2 to R5, R12, R17, R19) -/

theorem State.loopFlag_of_no_frame {s : State} (h : s.rx.state = .hunt ∨ s.rx.state = .fill) (tail : List Bool) :
    s.loopFlag tail = ({ s with rx := ⟨.fill, 0, []⟩ } : State).superviseFlag none := by
  unfold State.loopFlag State.flagEnds
  rcases h with h | h <;> rw [h] <;> rfl

theorem State.loopFlag_of_frame {s : State} {f : RxFrame} (h : s.rx.state = .frame f) (tail : List Bool) :
    s.loopFlag tail =
      ({ s.frameEnd (f.judge 0 (decide (tail ≠ []))) with rx := ⟨.fill, 0, []⟩ } : State).superviseFlag
        (some (f.judge 0 (decide (tail ≠ [])))) := by
  unfold State.loopFlag State.flagEnds
  rw [h]
  rfl

/-- A flag outside a frame: a second one in sequence brings a DOWN line UP. -/
theorem State.superviseFlag_none (s : State) :
    s.superviseFlag none =
      if s.sup.line = .down ∧ s.sup.marker = true then
        ({ s with sup := ⟨.up, s.timer, s.sup.downAt, true⟩ } : State).raise .lineUp (.time s.sup.downAt)
      else { s with sup := ⟨s.sup.line, s.timer, s.sup.downAt, true⟩ } := by
  simp [State.superviseFlag]

/-- A flag that ended a frame, the marker already cleared by a bad end: a GOOD end brings a DOWN line UP. -/
theorem State.superviseFlag_some {s : State} {c : EndCond} (cleared : s.sup.marker = true → c = .good) :
    s.superviseFlag (some c) =
      if s.sup.line = .down ∧ c = .good then
        ({ s with sup := ⟨.up, s.timer, s.sup.downAt, true⟩ } : State).raise .lineUp (.time s.sup.downAt)
      else { s with sup := ⟨s.sup.line, s.timer, s.sup.downAt, decide (c = .good)⟩ } := by
  have marker : (s.sup.marker = true ∨ c = .good) ↔ c = .good := ⟨fun h => h.elim cleared id, .inr⟩
  unfold State.superviseFlag
  simp only [Option.some.injEq, marker, reduceCtorEq, false_or]
  split
  · rename_i h
    simp only [h.2, decide_true]
  · rfl

theorem State.frameEnd_sup (s : State) (c : EndCond) :
    (s.frameEnd c).sup = { s.sup with marker := s.sup.marker && c.isGood } := by
  obtain ⟨_, _, _, _, _, _, _, h⟩ := s.frameEnd_frame c
  rw [h]

@[simp] theorem State.frameEnd_timer (s : State) (c : EndCond) : (s.frameEnd c).timer = s.timer := by
  obtain ⟨_, _, _, _, _, _, _, h⟩ := s.frameEnd_frame c
  rw [h]

theorem RxFrame.fcsGood_iff (f : RxFrame) :
    f.fcsGood = true ↔ ∃ lo hi : Byte, f.check = [lo, hi] ∧ ~~~ (hi ++ lo : Word16) = f.fcs := by
  unfold RxFrame.fcsGood
  split
  · rename_i lo hi hc
    simp [hc]
  · rename_i other
    simp only [Bool.false_eq_true, false_iff]
    rintro ⟨lo, hi, hc, -⟩
    exact other lo hi hc

/-- Settles O13: the receiver's state and the frame's count give the case. -/
theorem loopLineBetweenFrames : Obligations.LoopLineBetweenFrames := by
  intro s times hr
  refine ⟨fun v rest => ⟨fun hunt => ?_, fun fill => ?_, fun f hf early => ?_⟩, fun tail outside => ?_⟩
  · rw [exec_loopOctet hr, State.loopOctet_of_hunt (by rw [State.octetTimes_rx, hunt])]
  · rw [exec_loopOctet hr, State.loopOctet_of_fill (by rw [State.octetTimes_rx, fill]),
      RxFrame.push_of_header (by simp [RxFrame.empty])]
    rfl
  · rw [exec_loopOctet hr, State.loopOctet_of_header (by rw [State.octetTimes_rx, hf]) v rest early,
      RxFrame.push_of_header (by omega)]
  · rw [exec_loopFlag hr, State.loopFlag_of_no_frame (by rw [State.octetTimes_rx]; exact outside),
      State.superviseFlag_none]
    simp only [State.octetTimes_sup, State.octetTimes_timer]

/-- Settles O12: the receiver's judgement is R12's chain, and the supervisor reads the marker after the frame's end. -/
theorem flagEndsFrame : Obligations.FlagEndsFrame := by
  intro tail times f s hr hf
  have judged : f.judge 0 (decide (tail ≠ [])) =
      if tail ≠ [] then .ragged
      else if f.count < 10 then .runt
      else if f.count < 8 + f.declared.getD 0 + 2 then .length
      else if f.fcsGood then .good
      else .badFcs := by
    simp only [RxFrame.judge, RxFrame.length, decide_eq_true_eq, Nat.zero_add]
  refine ⟨?_, f.fcsGood_iff⟩
  rw [← judged, exec_loopFlag hr, State.loopFlag_of_frame (by rw [State.octetTimes_rx, hf]),
    State.superviseFlag_some]
  · simp only [State.frameEnd_sup, State.frameEnd_timer, State.octetTimes_sup, State.octetTimes_timer]
  · simp [State.frameEnd_sup, EndCond.isGood_iff]

/-! ### Ones and silence (R3, R4, R14, R17, R18) -/

theorem State.abortFrame_of_frame {s : State} {f : RxFrame} (h : s.rx.state = .frame f) (reason : AbortReason) :
    s.abortFrame reason = s.frameEnd (.aborted reason) := by
  unfold State.abortFrame
  rw [h]

theorem State.abortFrame_of_no_frame {s : State} (h : s.rx.state = .hunt ∨ s.rx.state = .fill) (reason : AbortReason) :
    s.abortFrame reason = s := by
  unfold State.abortFrame
  rcases h with h | h <;> rw [h]

/-- Settles O14. -/
theorem abortAndIdle : Obligations.AbortAndIdle := by
  intro s hr
  rw [exec_loopAbort_eq, exec_lineIdle_eq, State.event_of_released _ hr, State.event_of_released _ hr]
  refine ⟨fun f hf => ?_, fun outside => ?_⟩
  · simp only [State.loopOnes, State.abortFrame_of_frame hf, State.frameEnd_sup, and_self]
  · simp only [State.loopOnes, State.abortFrame_of_no_frame outside, and_self]

theorem State.silenceReached_iff (s : State) :
    s.silenceReached = true ↔ s.sup.line = .up ∧ s.params.lineSilence ≤ (s.timer - s.sup.lastFlag).toNat := by
  simp only [State.silenceReached, Bool.and_eq_true, decide_eq_true_eq, deadlineReached_iff]

/-- Settles O15. -/
theorem silenceDeadline : Obligations.SilenceDeadline := by
  intro s hr
  have run : exec .lineSilenceDeadline s = .next s.silence.settle := State.event_of_released _ hr
  refine ⟨fun early => ?_, fun up due => ?_⟩
  · have notReached : ¬ s.silenceReached = true := by
      rw [s.silenceReached_iff]
      rintro ⟨up, due⟩
      rcases early with down | early
      · rw [up] at down
        cases down
      · omega
    rw [run, State.silence, if_neg notReached]
  · rw [run, State.silence, if_pos (s.silenceReached_iff.2 ⟨up, due⟩)]
    refine ⟨fun f hf => ?_, fun outside => ?_⟩
    · have raised : (s.raise .lineDown (.time s.sup.lastFlag)).rx.state = .frame f := hf
      obtain ⟨_, _, _, _, _, _, _, ended⟩ :=
        (s.raise .lineDown (.time s.sup.lastFlag)).frameEnd_frame (.aborted .silence)
      simp only [State.lineDown, State.abortFrame_of_frame raised, ended]
      rfl
    · have raised : (s.raise .lineDown (.time s.sup.lastFlag)).rx.state = .hunt ∨
          (s.raise .lineDown (.time s.sup.lastFlag)).rx.state = .fill := outside
      simp only [State.lineDown, State.abortFrame_of_no_frame raised]
      rfl

/-! ### Octets after the header (R5, R8, R13) -/

/-- Settles O11: by the frame's count, the octet is info, FCS or excess. -/
theorem octetAfterHeader : Obligations.OctetAfterHeader := by
  intro v rest times f d s hr hf after hd
  have length := RxFrame.length_eq hd
  have hf' : (s.octetTimes times).rx.state = .frame f := by rw [State.octetTimes_rx, hf]
  refine ⟨fun info => ?_, fun beyond room => ?_, fun excess => ?_, fun older e => ?_, fun older e => ?_⟩
  · have collects : ∀ r : Request, (r.isLoop = true ∧ ¬ r.complete = true) ↔ r.collecting = true := by
      simp [Request.collecting]
    rw [exec_loopOctet hr, State.loopOctet_of_info hf' v rest after (by omega),
      RxFrame.push_of_info (by omega) (by omega), State.infoOctet_eq]
    obtain ⟨transit, h⟩ := s.octetTimes_frame times
    simp only [h, collects]
  · rw [exec_loopOctet hr, State.loopOctet_of_check hf' v rest (by omega) (by omega), RxFrame.push_of_check (by omega)]
  · rw [exec_loopOctet hr, State.loopOctet_of_excess hf' v rest (by omega)]
  · rw [modifyLast_append]
    by_cases ha : e.status = .arriving <;> by_cases hs : e.sending = .abandoned <;>
      simp [TransitEntry.arriving, TransitEntry.takeOctet, ha, hs]
  · rw [modifyLast_append]
    simp [DeliveryEntry.arriving, DeliveryEntry.takeOctet]

/-! ### The eighth octet (R7, R31 to R35, R43) -/

theorem State.isIdentity_iff (s : State) (a : Address) : s.isIdentity a = true ↔ some a ∈ s.identity.toList :=
  decide_eq_true_iff

/-- The verdict procedure reads neither the receiver nor the transit queue. -/
theorem State.find_of_frame (s : State) (transit : List TransitEntry) (rx : LoopRx) (h : Header) :
    ({ s with transit := transit, rx := rx } : State).find h = s.find h := rfl

section
variable {s : State} {h : Header}

theorem State.find_badHeader (long : 512 < h.declared) : s.find h = ⟨.badHeader, none⟩ := by
  unfold State.find
  cases s.mode <;> simp [long]

theorem State.find_strip (short : h.declared ≤ 512) (service : s.mode = .service)
    (own : some h.sa ∈ s.identity.toList) : s.find h = ⟨.strip, none⟩ := by
  have own := (s.isIdentity_iff h.sa).2 own
  simp [State.find, service, Nat.not_lt.2 short, own]

theorem State.find_orphan (short : h.declared ≤ 512)
    (foreign : s.mode = .service → some h.sa ∉ s.identity.toList) (far : s.params.hopLimit ≤ h.tally.hops) :
    s.find h = ⟨.orphan, none⟩ := by
  cases hm : s.mode with
  | service =>
    have foreign := mt (s.isIdentity_iff h.sa).1 (foreign hm)
    simp [State.find, hm, Nat.not_lt.2 short, foreign, far]
  | repeater => simp [State.find, hm, Nat.not_lt.2 short, far]

theorem State.find_repeater (short : h.declared ≤ 512) (repeater : s.mode = .repeater)
    (near : h.tally.hops < s.params.hopLimit) : s.find h = ⟨.pass, none⟩ := by
  simp [State.find, repeater, Nat.not_lt.2 short, Nat.not_le.2 near]

theorem State.find_manage (short : h.declared ≤ 512) (service : s.mode = .service)
    (foreign : some h.sa ∉ s.identity.toList) (near : h.tally.hops < s.params.hopLimit) (da : h.da = s.strapped)
    (kind : h.kind = 0x02) : s.find h = ⟨.manage, none⟩ := by
  have foreign := mt (s.isIdentity_iff h.sa).1 foreign
  simp [State.find, service, Nat.not_lt.2 short, foreign, Nat.not_le.2 near, da, kind, kindManage]

theorem State.offerRequest_of_room (room : s.requests.length < 4) (sa : Address) :
    s.offerRequest sa = (.kept, { s with requests := s.requests ++ [⟨.loop sa, [], false⟩] }) := if_pos room

theorem State.offerRequest_of_full (full : 4 ≤ s.requests.length) (sa : Address) :
    s.offerRequest sa = (.refused, s.count .mgmtDropped) := if_neg (Nat.not_lt.2 full)

end

/-- The eighth octet, from the state as the line left it: the header it completes is judged. -/
theorem exec_loopOctet_of_last {s : State} {f : RxFrame} (hr : s.resetAsserted = false) (hf : s.rx.state = .frame f)
    (last : f.count = 7) (v : Byte) (rest : List Bool) (times : Nat) :
    exec (.loopOctet v rest times) s =
      .next (({ s.octetTimes times with
          rx := ⟨.frame ⟨8, fcsOctet f.fcs v, f.head ++ [v],
            some (Header.ofOctets 0 (f.head ++ [v])).declared, f.check⟩, 0, rest⟩ } : State).headerComplete
          (Header.ofOctets 0 (f.head ++ [v]))).settle := by
  rw [exec_loopOctet hr, State.loopOctet_of_last (by rw [State.octetTimes_rx, hf]) v rest last,
    RxFrame.push_of_last (by omega), last]
  rfl

/-- Settles O9: one finding of the verdict procedure per clause. -/
theorem headerVerdictBeforeTable : Obligations.HeaderVerdictBeforeTable := by
  intro v rest times f s hr hf last
  dsimp only
  rw [exec_loopOctet_of_last hr hf last]
  generalize Header.ofOctets 0 (f.head ++ [v]) = h
  obtain ⟨transit, times_eq⟩ := s.octetTimes_frame times
  simp only [times_eq, State.headerComplete]
  refine ⟨fun long => ?_, fun short service own => ?_, fun short foreign far => ?_, fun short repeater near => ?_,
    fun short service foreign near da kind room => ?_, fun short service foreign near da kind full => ?_⟩
  · rw [State.find_of_frame, State.find_badHeader long]
    rfl
  · rw [State.find_of_frame, State.find_strip short service own]
    rfl
  · rw [State.find_of_frame, State.find_orphan short foreign far]
    rfl
  · rw [State.find_of_frame, State.find_repeater short repeater near]
    rfl
  · rw [State.find_of_frame, State.find_manage short service foreign near da kind]
    unfold State.judgeHeader
    rw [State.offerRequest_of_room]
    · rfl
    · exact room
  · rw [State.find_of_frame, State.find_manage short service foreign near da kind]
    unfold State.judgeHeader
    rw [State.offerRequest_of_full]
    · rfl
    · exact full

end Sys2Proof.Machine
end

section
/-! What a frame's end leaves in each field, by the verdict record. -/

namespace Sys2Proof.Machine

/-! ### The frame end field by field (R9, R15, R40) -/

section
variable {s : State} {r : VerdictRecord} (hv : s.verdict = some r) (c : EndCond)
include hv

theorem State.frameEnd_transit :
    (s.frameEnd c).transit = if r.forward then (s.endTransit c.isGood).transit else s.transit := by
  rw [State.frameEnd_eq hv]

theorem State.frameEnd_ltx :
    (s.frameEnd c).ltx = if r.forward then (s.endTransit c.isGood).ltx else s.ltx := by
  rw [State.frameEnd_eq hv]

theorem State.frameEnd_delivery :
    (s.frameEnd c).delivery = if r.keepsCopy then (s.endDelivery c.isGood).delivery else s.delivery := by
  rw [State.frameEnd_eq hv]

theorem State.frameEnd_requests_eq :
    (s.frameEnd c).requests = if r.keepsRequest then (s.endRequest c.isGood).requests else s.requests := by
  rw [State.frameEnd_eq hv]

theorem State.frameEnd_log :
    (s.frameEnd c).log = if r.verdict = .strip then (s.endReturning c.isGood).log else s.log := by
  rw [State.frameEnd_eq hv]

theorem State.frameEnd_reports :
    (s.frameEnd c).reports = if r.verdict = .strip then (s.endReturning c.isGood).reports else s.reports := by
  rw [State.frameEnd_eq hv]

end

/-! ### The counters at a frame's end -/

theorem State.counter_congr {s t : State} (h : t.counters = s.counters) (k : Counter) : t.counter k = s.counter k := by
  unfold State.counter
  rw [h]

theorem State.counter_count (s : State) (c k : Counter) :
    (s.count c).counter k = s.counter k + if k = c then 1 else 0 := s.counter_countN c k 1

/-- STRIPPED counts the end of a matched frame. -/
theorem State.endReturning_counter (s : State) (good : Bool) (k : Counter) :
    (s.endReturning good).counter k =
      s.counter k + if k = .stripped ∧ s.log.any (fun e => !e.isOutstanding) then 1 else 0 := by
  unfold State.endReturning
  split
  · rename_i none
    have noReturning : s.log.any (fun e => !e.isOutstanding) = false := by
      rw [List.any_eq_false]
      exact List.find?_eq_none.1 none
    simp [noReturning]
  · rename_i e found
    have returning : s.log.any (fun e => !e.isOutstanding) = true :=
      List.any_eq_true.2 ⟨e, List.mem_of_find?_eq_some found,
        List.find?_some (p := fun e : LogEntry => !e.isOutstanding) found⟩
    refine (State.counter_congr (s := s.count .stripped) rfl k).trans ?_
    rw [State.counter_count]
    simp [returning]

theorem State.endBlocks_counter {s : State} {r : VerdictRecord} (hv : s.verdict = some r) (good : Bool) (k : Counter) :
    (s.endBlocks good).counter k =
      s.counter k + if k = .stripped ∧ r.verdict = .strip ∧ s.log.any (fun e => !e.isOutstanding) then 1 else 0 := by
  have counters : (s.endBlocks good).counters =
      if r.verdict = .strip then (s.endReturning good).counters else s.counters := by
    rw [State.endBlocks_eq hv]
  by_cases strip : r.verdict = .strip
  · rw [if_pos strip] at counters
    rw [State.counter_congr counters, State.endReturning_counter]
    simp [strip]
  · rw [if_neg strip] at counters
    rw [State.counter_congr counters]
    simp [strip]

theorem State.frameEnd_counters (s : State) (c : EndCond) :
    (s.frameEnd c).counters =
      if c = .good then (s.endBlocks c.isGood).counters else ((s.endBlocks c.isGood).count .rxBad).counters := by
  unfold State.frameEnd
  simp only [c.isGood_iff]
  split <;> rfl

/-- RX_BAD counts a bad end beside it. -/
theorem State.frameEnd_counter {s : State} {r : VerdictRecord} (hv : s.verdict = some r) (c : EndCond) (k : Counter) :
    (s.frameEnd c).counter k =
      s.counter k + (if k = .rxBad ∧ c ≠ .good then 1 else 0) +
        if k = .stripped ∧ r.verdict = .strip ∧ s.log.any (fun e => !e.isOutstanding) then 1 else 0 := by
  have counters := s.frameEnd_counters c
  by_cases good : c = .good
  · rw [if_pos good] at counters
    rw [State.counter_congr counters, State.endBlocks_counter hv]
    simp [good]
  · rw [if_neg good] at counters
    rw [State.counter_congr counters, State.counter_count, State.endBlocks_counter hv]
    simp only [good, not_false_eq_true, ne_eq, and_true]
    ac_rfl

/-! ### The entries as the statement spells them -/

theorem VerdictRecord.keepsCopy_iff (r : VerdictRecord) :
    r.keepsCopy = true ↔ r.verdict = .copy ∧ r.take = some .kept := decide_eq_true_iff

theorem VerdictRecord.keepsRequest_iff (r : VerdictRecord) :
    r.keepsRequest = true ↔ r.verdict = .manage ∧ r.take = some .kept := decide_eq_true_iff

/-- The COMPLETION of the entry that a matched frame's end closes (R85, R93, R122). -/
theorem State.completionsOf_returning (s : State) {e : LogEntry} {tally : Tally} (he : e.state = .returning tally)
    (c : EndCond) :
    s.completionsOf (closingOf c.isGood e.state) [e] =
      match e.origin with
      | .own => []
      | .station tag cls =>
        if e.silent = false ∧ s.port = .active then
          [.completion tag cls e.seq (if c = .good then .returned tally else .damaged tally)]
        else [] := by
  have closing : closingOf c.isGood e.state = if c = .good then .returned tally else .damaged tally := by
    simp only [he, closingOf, c.isGood_iff]
  rw [closing]
  unfold State.completionsOf
  cases ho : e.origin with
  | own => simp [LogEntry.completion?, ho]
  | station tag cls =>
    cases hs : e.silent <;> by_cases hp : s.port = .active <;> simp [LogEntry.completion?, ho, hs, hp]

/-- Settles O16: each clause reads one field of the frame end. -/
theorem frameEndClosesBlocks : Obligations.FrameEndClosesBlocks := by
  refine ⟨fun c s hv => State.frameEnd_of_no_verdict hv c, fun c r s hv => ?_⟩
  refine ⟨?_, State.frameEnd_counter hv c, fun older e ht forward ha => ?_, fun idle => ?_,
    fun older e hd copy kept ha => ?_, fun idle => ?_, ?_, fun older newer e tally strip hl before he => ?_,
    fun idle => ?_⟩
  · obtain ⟨_, _, _, _, _, _, _, h⟩ := s.frameEnd_frame c
    rw [h]
    rfl
  · rw [State.frameEnd_transit hv, State.frameEnd_ltx hv, if_pos forward, if_pos forward,
      State.endTransit_of_arriving ht ha]
    simp only [c.isGood_iff, c.isGood_eq_false_iff, TransitEntry.finish, and_self]
  · rw [State.frameEnd_transit hv, State.frameEnd_ltx hv]
    rcases idle with refused | none
    · simp [refused]
    · simp [State.endTransit_of_none none]
  · rw [State.frameEnd_delivery hv, if_pos (r.keepsCopy_iff.2 ⟨copy, kept⟩), State.endDelivery_of_arriving hd ha]
    simp only [c.isGood_iff]
  · rw [State.frameEnd_delivery hv]
    split
    · rename_i keeps
      obtain ⟨copy, kept⟩ := r.keepsCopy_iff.1 keeps
      rcases idle with notCopy | notKept | none
      · exact absurd copy notCopy
      · exact absurd kept notKept
      · rw [State.endDelivery_of_none none]
    · rfl
  · rw [State.frameEnd_requests_eq hv]
    simp only [r.keepsRequest_iff, State.endRequest_requests, c.isGood_iff, Request.collecting, Bool.and_eq_true,
      Bool.not_eq_true']
    simp only [Bool.not_eq_true]
  · have outstanding : ∀ x ∈ older, x.isOutstanding = true := fun x hx => x.isOutstanding_iff.2 (before x hx)
    have returning := e.isOutstanding_eq_false_iff.2 ⟨tally, he⟩
    rw [State.frameEnd_log hv, State.frameEnd_reports hv, if_pos strip, if_pos strip,
      State.endReturning_of_returning hl outstanding returning]
    exact ⟨rfl, congrArg (s.reports ++ ·) (State.completionsOf_returning s he c)⟩
  · rw [State.frameEnd_log hv, State.frameEnd_reports hv]
    rcases idle with other | all
    · simp [other]
    · rw [State.endReturning_of_none fun x hx => x.isOutstanding_iff.2 (all x hx)]
      simp

end Sys2Proof.Machine
end

section
/-! The line code: the collector, the bits of a receive line, and what a sent line brings a receiver. -/

namespace Sys2Proof.Machine

/-! ### The collector (R5) -/

theorem collect_append (c as bs : List Bool) :
    collect c (as ++ bs) =
      ((collect (collect c as).1 bs).1, (collect c as).2 ++ (collect (collect c as).1 bs).2) := by
  induction as generalizing c with
  | nil => rfl
  | cons a as ih =>
    simp only [List.cons_append, collect]
    split
    · rw [ih]
      rfl
    · rw [ih]

/-- Bits that do not fill the collector stay in it. -/
theorem collect_of_short {c bs : List Bool} (h : (c ++ bs).length < 8) : collect c bs = (c ++ bs, []) := by
  induction bs generalizing c with
  | nil => simp [collect]
  | cons b bs ih =>
    simp only [List.length_append, List.length_cons] at h
    rw [collect, if_neg (by omega), ih (by simp; omega), List.append_assoc, List.singleton_append]

/-- The bit that fills the collector completes an octet, and at most seven more stay. -/
theorem collect_of_full {c bs : List Bool} (room : c.length ≤ 7) (few : bs.length ≤ 8) (full : 8 ≤ (c ++ bs).length) :
    collect c bs = ((c ++ bs).drop 8, [.octet (octetOf ((c ++ bs).take 8))]) := by
  induction bs generalizing c with
  | nil =>
    simp only [List.append_nil] at full
    omega
  | cons b bs ih =>
    simp only [List.length_append, List.length_cons] at full few
    have split : c ++ b :: bs = (c ++ [b]) ++ bs := by simp
    by_cases last : c.length = 7
    · have eight : (c ++ [b]).length = 8 := by simp [last]
      rw [collect, if_pos last, collect_of_short (by simp; omega), split, ← eight, List.drop_left, List.take_left]
      rfl
    · rw [collect, if_neg last, ih (by simp; omega) (by omega) (by simp; omega), split]

/-- As many bits stand in the collector and in the octets completed as came in. -/
theorem collect_length {c : List Bool} (bs : List Bool) (h : c.length ≤ 7) :
    (collect c bs).1.length ≤ 7 ∧ (collect c bs).1.length + 8 * (collect c bs).2.length = c.length + bs.length := by
  induction bs generalizing c with
  | nil => simp [collect, h]
  | cons b bs ih =>
    rw [collect]
    split
    · obtain ⟨h1, h2⟩ := ih (c := []) (by simp)
      refine ⟨h1, ?_⟩
      simp only [List.length_cons, List.length_nil] at h2 ⊢
      omega
    · obtain ⟨h1, h2⟩ := ih (c := c ++ [b]) (by simp; omega)
      refine ⟨h1, ?_⟩
      simp only [List.length_append, List.length_cons, List.length_nil] at h2 ⊢
      omega

/-- Eight bits least significant first are the octet they were taken from (R5). -/
theorem octetOf_octetBits (v : Byte) : octetOf (octetBits v) = v := by
  revert v
  decide

theorem collect_octetBits (v : Byte) : collect [] (octetBits v) = ([], [.octet v]) := by
  rw [collect_of_full (by simp) (by simp [octetBits]) (by simp [octetBits])]
  rw [List.nil_append, List.take_of_length_le (by simp [octetBits]), octetOf_octetBits,
    List.drop_eq_nil_of_le (by simp [octetBits])]

/-- A run of octets goes through the collector whole. -/
theorem collect_lineBits (octets : List Byte) : collect [] (lineBits octets) = ([], octets.map .octet) := by
  induction octets with
  | nil => rfl
  | cons v octets ih =>
    have split : lineBits (v :: octets) = octetBits v ++ lineBits octets := rfl
    rw [split, collect_append, collect_octetBits]
    simp only [ih]
    rfl

/-! ### One bit of a receive line (R1, R2) -/

/-- The data bits that a zero settles after at most five ones: the ones, and the zero itself unless it is inserted. -/
def LineRx.settled (l : LineRx) : List Bool := List.replicate l.run true ++ if l.run ≤ 4 then [false] else []

/-- The collector at a flag, the flag's first zero taken back out. -/
def LineRx.tail (l : LineRx) : List Bool :=
  if l.collector.getLast? = some false then l.collector.dropLast else l.collector

section
variable (l : LineRx)

theorem LineRx.bit_one (abort : l.run ≠ 6) (idle : l.run ≠ 14) : l.bit true = (⟨l.run + 1, l.collector⟩, []) := by
  simp [LineRx.bit, abort, idle]

theorem LineRx.bit_seventh (h : l.run = 6) : l.bit true = (⟨7, []⟩, [.abort]) := by
  simp [LineRx.bit, h]

theorem LineRx.bit_fifteenth (h : l.run = 14) : l.bit true = (⟨15, []⟩, [.idle]) := by
  simp [LineRx.bit, h]

theorem LineRx.bit_settles (h : l.run ≤ 5) :
    l.bit false = (⟨0, (collect l.collector l.settled).1⟩, (collect l.collector l.settled).2) := by
  by_cases data : l.run ≤ 4
  · simp [LineRx.bit, LineRx.settled, data]
  · have inserted : l.run = 5 := by omega
    simp [LineRx.bit, LineRx.settled, inserted]

theorem LineRx.settled_length (h : l.run ≤ 5) : l.settled.length ≤ 5 := by
  unfold LineRx.settled
  split <;> simp <;> omega

theorem LineRx.bit_short (h : l.run ≤ 5) (short : (l.collector ++ l.settled).length < 8) :
    l.bit false = (⟨0, l.collector ++ l.settled⟩, []) := by
  rw [l.bit_settles h, collect_of_short short]

theorem LineRx.bit_octet (h : l.run ≤ 5) (room : l.collector.length ≤ 7)
    (full : 8 ≤ (l.collector ++ l.settled).length) :
    l.bit false =
      (⟨0, (l.collector ++ l.settled).drop 8⟩, [.octet (octetOf ((l.collector ++ l.settled).take 8))]) := by
  have few := l.settled_length h
  rw [l.bit_settles h, collect_of_full room (by omega) full]

theorem LineRx.bit_flag (h : l.run = 6) : l.bit false = (⟨0, []⟩, [.flag l.tail]) := by
  simp [LineRx.bit, LineRx.tail, h]

theorem LineRx.bit_ends (h : 7 ≤ l.run) : l.bit false = (⟨0, []⟩, []) := by
  have h4 : ¬ l.run ≤ 4 := by omega
  have h5 : l.run ≠ 5 := by omega
  have h6 : l.run ≠ 6 := by omega
  simp [LineRx.bit, h4, h5, h6]

end

theorem LineRx.bits_append (l : LineRx) (as bs : List Bool) :
    l.bits (as ++ bs) = (((l.bits as).1.bits bs).1, (l.bits as).2 ++ ((l.bits as).1.bits bs).2) := by
  induction as generalizing l with
  | nil => rfl
  | cons a as ih =>
    simp only [List.cons_append, LineRx.bits, ih, List.append_assoc]

/-! ### Sent lines received (R60, R61) -/

/-- Line bits bring a receiver these data bits, its collector's aside: fewer than five ones are still held back after
them, and the octets completed with the ones held back are what the data brings the collector. -/
def LineRx.Brings (l : LineRx) (bits data : List Bool) : Prop :=
  ∃ (run : Nat) (c : List Bool) (events : List LineEvent), l.bits bits = (⟨run, c⟩, events) ∧ run < 5 ∧
    (l.collector.length ≤ 7 → c.length ≤ 7) ∧
    collect l.collector data =
      ((collect c (List.replicate run true)).1, events ++ (collect c (List.replicate run true)).2)

/-- A zero first settles what was held back. -/
theorem LineRx.Brings.zero {l : LineRx} (few : l.run ≤ 5) {bits data : List Bool}
    (h : (⟨0, (collect l.collector l.settled).1⟩ : LineRx).Brings bits data) :
    l.Brings (false :: bits) (l.settled ++ data) := by
  obtain ⟨run, c, events, received, few', room, collected⟩ := h
  refine ⟨run, c, (collect l.collector l.settled).2 ++ events, ?_, few', fun h => room (collect_length _ h).1, ?_⟩
  · rw [LineRx.bits, LineRx.bit_settles _ few]
    simp only [received]
  · simp only at collected
    rw [collect_append, collected, List.append_assoc]

/-- A one is held back. -/
theorem LineRx.Brings.one {run : Nat} (few : run ≤ 4) {c bits data : List Bool}
    (h : (⟨run + 1, c⟩ : LineRx).Brings bits data) : (⟨run, c⟩ : LineRx).Brings (true :: bits) data := by
  obtain ⟨run', c', events, received, few', room, collected⟩ := h
  refine ⟨run', c', events, ?_, few', room, collected⟩
  rw [LineRx.bits, LineRx.bit_one _ (by simp; omega) (by simp; omega)]
  simp only [received, List.nil_append]

/-- Sent data brings the receiver that data, no bit lost or added by the inserted zeros. -/
theorem LineRx.brings_stuff (data : List Bool) {run : Nat} (few : run < 5) (c : List Bool) :
    (⟨run, c⟩ : LineRx).Brings (stuff run data) (List.replicate run true ++ data) := by
  induction data generalizing run c with
  | nil => exact ⟨run, c, [], rfl, few, id, by simp⟩
  | cons b data ih =>
    cases b with
    | false =>
      have settled : (⟨run, c⟩ : LineRx).settled ++ data = List.replicate run true ++ false :: data := by
        simp [LineRx.settled, Nat.le_of_lt_succ few]
      rw [← settled]
      exact .zero (Nat.le_of_lt few) (ih (by omega) _)
    | true =>
      by_cases fifth : run = 4
      · subst fifth
        exact .one (Nat.le_refl 4) (.zero (l := ⟨5, c⟩) (Nat.le_refl 5) (ih (by omega) _))
      · have more : List.replicate run true ++ true :: data = List.replicate (run + 1) true ++ data := by
          rw [List.replicate_succ', List.append_assoc, List.singleton_append]
        rw [stuff, if_neg fifth, more]
        exact .one (by omega) (ih (by omega) c)

/-- A flag after at most four ones held back: they and the flag's first zero are settled, and it is taken back out. -/
theorem LineRx.bits_flagBits {run : Nat} (few : run ≤ 4) (c : List Bool) :
    (⟨run, c⟩ : LineRx).bits flagBits =
      (⟨0, []⟩, (collect c (List.replicate run true ++ [false])).2 ++
        [.flag (⟨6, (collect c (List.replicate run true ++ [false])).1⟩ : LineRx).tail]) := by
  have settled : (⟨run, c⟩ : LineRx).settled = List.replicate run true ++ [false] := by simp [LineRx.settled, few]
  rw [flagBits, LineRx.bits, LineRx.bit_settles _ (by simp; omega), settled]
  simp [LineRx.bits, LineRx.bit, LineRx.tail]

theorem LineRx.bits_openingFlag : (⟨0, []⟩ : LineRx).bits flagBits = (⟨0, []⟩, [.flag []]) := rfl

/-- The bits of octets after an opening flag. -/
theorem LineRx.bits_octets (octets : List Byte) :
    ∃ (run : Nat) (c : List Bool) (events : List LineEvent),
      (⟨0, []⟩ : LineRx).bits (stuff 0 (lineBits octets)) = (⟨run, c⟩, events) ∧ run < 5 ∧ c.length ≤ 7 ∧
        (collect c (List.replicate run true)).1 = [] ∧
        octets.map .octet = events ++ (collect c (List.replicate run true)).2 := by
  obtain ⟨run, c, events, received, few, room, collected⟩ :=
    LineRx.brings_stuff (lineBits octets) (run := 0) (by omega) []
  rw [List.replicate_zero, List.nil_append, collect_lineBits, Prod.mk.injEq] at collected
  exact ⟨run, c, events, received, few, room (by simp), collected.1.symm, collected.2⟩

theorem LineRx.bits_frameBits (octets : List Byte) :
    (⟨0, []⟩ : LineRx).bits (frameBits octets) =
      (⟨0, []⟩, .flag [] :: (octets.map LineEvent.octet ++ [.flag []])) := by
  obtain ⟨run, c, events, received, few, -, empty, completed⟩ := LineRx.bits_octets octets
  have closing : collect c (List.replicate run true ++ [false]) =
      ([false], (collect c (List.replicate run true)).2) := by
    rw [collect_append, empty]
    simp [collect]
  rw [frameBits, LineRx.bits_append, LineRx.bits_openingFlag]
  simp only
  rw [LineRx.bits_append, received]
  simp only
  rw [LineRx.bits_flagBits (by omega), closing, completed]
  simp [LineRx.tail]

/-- Settles O4: data sent with the zeros inserted is data received, whatever ones are still held back. -/
theorem lineCodeRoundTrip : Obligations.LineCodeRoundTrip := by
  refine ⟨fun v => rfl, fun run bits => ⟨rfl, rfl, rfl⟩, ⟨rfl, rfl⟩,
    fun octets => ⟨rfl, LineRx.bits_frameBits octets⟩, fun octets => ?_, fun l few => ?_⟩
  · obtain ⟨run, c, events, received, few, room, -, completed⟩ := LineRx.bits_octets octets
    have held := (collect_length (c := c) (List.replicate run true) room).2
    rw [List.length_replicate] at held
    have count := congrArg List.length completed
    rw [List.length_map, List.length_append] at count
    refine ⟨events.length, by omega, ?_⟩
    rw [LineRx.bits_append, LineRx.bits_openingFlag, LineOut.bits]
    simp only [received]
    rw [List.map_take, completed, List.take_left]
    rfl
  · obtain ⟨run, c⟩ := l
    simp only at few
    interval_cases run <;> simp [abortBits, flagBits, List.replicate, LineRx.bits, LineRx.bit]

end Sys2Proof.Machine
end

section
/-! One bit of each receive line: the command it completes, or what it leaves (R1 to R5, R115 to R117). -/

namespace Sys2Proof.Machine

/-- No command faults and none is refused. -/
theorem exec_eq_afterCommand (c : Instr) (s : State) : exec c s = .next (s.afterCommand c) := by
  cases c <;> rfl

/-! ### The loop receive line -/

section
variable {s : State} (hr : s.resetAsserted = false) {b : Bool} {l : LineRx}
include hr

/-- A bit that completes an event is that event's command. -/
theorem exec_loopCommand {e : LineEvent} (h : s.rx.line.bit b = (l, [e])) :
    exec (loopCommand l e) s = .next (s.loopBit b) := by
  rw [exec_eq_afterCommand]
  simp [State.loopBit, State.loopBitCommand, hr, h]

/-- A bit that completes none moves the run and the collector. -/
theorem State.loopBit_of_quiet (h : s.rx.line.bit b = (l, [])) :
    s.loopBit b = { s with rx := ⟨s.rx.state, l.run, if s.rx.state = .hunt then [] else l.collector⟩ } := by
  simp [State.loopBit, State.loopBitCommand, LoopRx.takeBit, hr, h]

end

/-! ### The station receive line -/

/-- A one begins no break: it sets the zero run to 0. -/
theorem State.breakBegins_takeBit_true (s : State) :
    ({ s with srx := s.srx.takeBit true } : State).breakBegins = false := by
  simp [State.breakBegins, StationRx.takeBit, zerosAfter]

theorem State.breakBegins_takeBit_false (s : State) :
    ({ s with srx := s.srx.takeBit false } : State).breakBegins = true ↔
      s.port = .active ∧ s.srx.state = .hunt ∧ 32 ≤ s.srx.zeroRun + 1 :=
  decide_eq_true_iff

theorem RxFrame.judge_eq_good_iff {lead : Nat} {ragged : Bool} {f : RxFrame} :
    f.judge lead ragged = .good ↔
      ragged = false ∧ lead + 10 ≤ f.count ∧ lead + 8 + f.length + 2 ≤ f.count ∧ f.fcsGood = true := by
  unfold RxFrame.judge
  split_ifs <;> simp_all

section
variable {s : State} {f : RxFrame} {info : List Byte}

theorem StationRx.atExcess_of_frame {rx : StationRx} (h : rx.state = .frame f info) :
    rx.atExcess = f.atExcess 1 := by
  rw [StationRx.atExcess, h]

theorem StationRx.atExcess_outside {rx : StationRx} (h : rx.state = .hunt ∨ rx.state = .fill) :
    rx.atExcess = false := by
  rcases h with h | h <;> rw [StationRx.atExcess, h]

/-- An octet of a station frame is its excess octet from the declared length on. -/
theorem State.stationCommand_excess (h : s.srx.state = .frame f info) (header : 9 ≤ f.count)
    (full : f.count = 9 + f.length + 2) (l : LineRx) (v : Byte) :
    s.stationCommand l (.octet v) = .stationFrameDiscard (.excess v l.collector) := by
  have excess := f.atExcess_iff (lead := 1)
  simp [State.stationCommand, StationRx.atExcess_of_frame h, excess.2 ⟨header, full⟩]

theorem State.stationCommand_short (h : s.srx.state = .frame f info)
    (short : f.count < 9 ∨ f.count ≠ 9 + f.length + 2) (l : LineRx) (v : Byte) :
    s.stationCommand l (.octet v) = .stationOctet v l.collector := by
  have excess := f.atExcess_iff (lead := 1)
  have before : ¬ f.atExcess 1 = true := fun h => by
    obtain ⟨header, full⟩ := excess.1 h
    omega
  simp [State.stationCommand, StationRx.atExcess_of_frame h, before]

theorem State.stationCommand_octet_outside (h : s.srx.state = .hunt ∨ s.srx.state = .fill) (l : LineRx) (v : Byte) :
    s.stationCommand l (.octet v) = .stationOctet v l.collector := by
  simp [State.stationCommand, StationRx.atExcess_outside h]

theorem State.stationCommand_abort (h : s.srx.state = .frame f info) (l : LineRx) :
    s.stationCommand l .abort = .stationFrameDiscard .abort := by
  simp [State.stationCommand, h]

theorem State.stationCommand_abort_outside (h : s.srx.state = .hunt ∨ s.srx.state = .fill) (l : LineRx) :
    s.stationCommand l .abort = .stationAbort false := by
  rcases h with h | h <;> simp [State.stationCommand, h]

theorem State.stationCommand_flag_break (h : s.port = .break) (l : LineRx) (tail : List Bool) :
    s.stationCommand l (.flag tail) = .portBreakEnd := by
  simp [State.stationCommand, State.stationFlagCommand, h]

theorem State.stationCommand_flag_outside (active : s.port = .active) (h : s.srx.state = .hunt ∨ s.srx.state = .fill)
    (l : LineRx) (tail : List Bool) : s.stationCommand l (.flag tail) = .stationFlag tail := by
  rcases h with h | h <;> simp [State.stationCommand, State.stationFlagCommand, active, h]

/-- A flag ends a station frame, GOOD or not. -/
theorem State.stationCommand_flag_frame (active : s.port = .active) (h : s.srx.state = .frame f info)
    (l : LineRx) (tail : List Bool) :
    s.stationCommand l (.flag tail) =
      if f.judge 1 (decide (tail ≠ [])) = .good then .stationFrameGood else .stationFrameDiscard (.flag tail) := by
  simp only [State.stationCommand, State.stationFlagCommand, active, h]

variable (hr : s.resetAsserted = false) {b : Bool} {l : LineRx}
include hr

/-- A bit that completes an event is that event's command. -/
theorem exec_stationCommand {e : LineEvent} (h : s.srx.line.bit b = (l, [e])) {c : Instr}
    (command : s.stationCommand l e = c) : exec c s = .next (s.stationBit b) := by
  rw [exec_eq_afterCommand]
  simp [State.stationBit, State.stationBitCommand, hr, h, command]

/-- A bit that completes none moves the runs and the collector, unless a break begins with it. -/
theorem State.stationBit_of_quiet (h : s.srx.line.bit b = (l, []))
    (no : ({ s with srx := s.srx.takeBit b } : State).breakBegins = false) :
    s.stationBit b = { s with
      srx := ⟨s.srx.state, l.run, zerosAfter s.srx.zeroRun [b], if s.srx.state = .hunt then [] else l.collector⟩ } := by
  have command : s.stationBitCommand b = none := by
    simp only [State.stationBitCommand, h]
    rw [if_neg (by rw [no]; exact Bool.false_ne_true)]
  have after : s.stationBit b = { s with srx := s.srx.takeBit b } := by
    rw [State.stationBit, if_neg (by rw [hr]; exact Bool.false_ne_true), command]
  rw [after, StationRx.takeBit, h]

theorem exec_portBreak (h : s.srx.line.bit b = (l, []))
    (begins : ({ s with srx := s.srx.takeBit b } : State).breakBegins = true) :
    exec (.portBreak [b]) s = .next (s.stationBit b) := by
  have command : s.stationBitCommand b = some (.portBreak [b]) := by
    simp only [State.stationBitCommand, h]
    rw [if_pos begins]
  rw [exec_eq_afterCommand, State.stationBit, if_neg (by rw [hr]; exact Bool.false_ne_true), command]

/-- A zero that completes no event counts in the zero run, and begins the break at 32 (R116). -/
theorem stationZero_of_quiet (h : s.srx.line.bit false = (l, [])) {c : List Bool}
    (kept : (if s.srx.state = .hunt then [] else l.collector) = c) :
    ((s.port = .active ∧ s.srx.state = .hunt ∧ 32 ≤ s.srx.zeroRun + 1) →
      exec (.portBreak [false]) s = .next (s.stationBit false)) ∧
    (¬ (s.port = .active ∧ s.srx.state = .hunt ∧ 32 ≤ s.srx.zeroRun + 1) →
      s.stationBit false = { s with srx := ⟨s.srx.state, l.run, s.srx.zeroRun + 1, c⟩ }) := by
  have begins := s.breakBegins_takeBit_false
  refine ⟨fun h32 => exec_portBreak hr h (begins.2 h32), fun few => ?_⟩
  rw [State.stationBit_of_quiet hr h (Bool.eq_false_iff.2 fun h32 => few (begins.1 h32)), kept]
  rfl

end

/-! ### Both lines, bit by bit -/

theorem loopLine_bitByBit (s : State) (hr : s.resetAsserted = false) (room : s.rx.collector.length ≤ 7) :
    let held := s.rx.collector ++ s.rx.line.settled
    let kept (bits : List Bool) : List Bool := if s.rx.state = .hunt then [] else bits
    (s.rx.run ≠ 6 → s.rx.run ≠ 14 →
      s.loopBit true = { s with rx := ⟨s.rx.state, s.rx.run + 1, kept s.rx.collector⟩ }) ∧
    (s.rx.run = 6 → exec .loopAbort s = .next (s.loopBit true)) ∧
    (s.rx.run = 14 → exec .lineIdle s = .next (s.loopBit true)) ∧
    (s.rx.run ≤ 5 → held.length < 8 → s.loopBit false = { s with rx := ⟨s.rx.state, 0, kept held⟩ }) ∧
    (s.rx.run ≤ 5 → 8 ≤ held.length →
      exec (.loopOctet (octetOf (held.take 8)) (held.drop 8) 1) s = .next (s.loopBit false)) ∧
    (s.rx.run = 6 → exec (.loopFlag s.rx.line.tail 1) s = .next (s.loopBit false)) ∧
    (7 ≤ s.rx.run → s.loopBit false = { s with rx := ⟨s.rx.state, 0, []⟩ }) := by
  intro held kept
  refine ⟨fun abort idle => State.loopBit_of_quiet hr (s.rx.line.bit_one abort idle),
    fun h => exec_loopCommand hr (s.rx.line.bit_seventh h), fun h => exec_loopCommand hr (s.rx.line.bit_fifteenth h),
    fun few short => State.loopBit_of_quiet hr (s.rx.line.bit_short few short),
    fun few full => exec_loopCommand hr (s.rx.line.bit_octet few room full),
    fun h => exec_loopCommand hr (s.rx.line.bit_flag h), fun h => ?_⟩
  simpa using State.loopBit_of_quiet hr (s.rx.line.bit_ends h)

/-- Settles O5: what the bit is on the line, and the command that the line's event is in the receiver's state. -/
theorem linesBitByBit : Obligations.LinesBitByBit := by
  refine ⟨loopLine_bitByBit, octetOf_octetBits, fun s hr room => ?_⟩
  intro data held kept tail outside breaks one zero
  have abort (h : s.srx.run = 6) := s.srx.line.bit_seventh h
  have octet (few : s.srx.run ≤ 5) (full : 8 ≤ held.length) := s.srx.line.bit_octet few room full
  have flag (h : s.srx.run = 6) := s.srx.line.bit_flag h
  refine ⟨fun noAbort noIdle => ?_, fun h out => ?_, fun f info h inFrame => ?_, fun h => ?_, fun quiet => ?_,
    fun few full => ⟨fun out => ?_, fun f info inFrame => ⟨fun short => ?_, fun header all => ?_⟩⟩,
    fun h => ⟨fun broken => ?_, fun active out => ?_, fun f info active inFrame => ?_⟩⟩
  · exact State.stationBit_of_quiet hr (s.srx.line.bit_one noAbort noIdle) s.breakBegins_takeBit_true
  · exact exec_stationCommand hr (abort h) (State.stationCommand_abort_outside out _)
  · exact exec_stationCommand hr (abort h) (State.stationCommand_abort inFrame _)
  · exact exec_stationCommand hr (s.srx.line.bit_fifteenth h) rfl
  · rcases quiet with ⟨few, short⟩ | long
    · rw [if_pos few]
      exact stationZero_of_quiet hr (s.srx.line.bit_short few short) rfl
    · rw [if_neg (by omega)]
      exact stationZero_of_quiet hr (s.srx.line.bit_ends long) (ite_self [])
  · exact exec_stationCommand hr (octet few full) (State.stationCommand_octet_outside out _ _)
  · exact exec_stationCommand hr (octet few full) (State.stationCommand_short inFrame short _ _)
  · exact exec_stationCommand hr (octet few full) (State.stationCommand_excess inFrame header all _ _)
  · exact exec_stationCommand hr (flag h) (State.stationCommand_flag_break broken _ _)
  · exact exec_stationCommand hr (flag h) (State.stationCommand_flag_outside active out _ _)
  · have ends := State.stationCommand_flag_frame active inFrame ⟨0, []⟩ tail
    have good_iff : f.judge 1 (decide (tail ≠ [])) = .good ↔
        tail = [] ∧ 11 ≤ f.count ∧ 9 + f.declared.getD 0 + 2 ≤ f.count ∧ f.fcsGood = true := by
      rw [RxFrame.judge_eq_good_iff]
      simp [RxFrame.length]
    refine ⟨fun good => ?_, fun bad => ?_⟩
    · rw [if_pos (good_iff.2 good)] at ends
      exact exec_stationCommand hr (flag h) ends
    · rw [if_neg (fun h => bad (good_iff.1 h))] at ends
      exact exec_stationCommand hr (flag h) ends

end Sys2Proof.Machine
end

section
/-! A loop frame sent and received: its octets go through the receiver, which ends it GOOD (R5, R6, R10 to R12,
11.1). -/

namespace Sys2Proof.Machine

/-! ### Runs of octets in the receiver (R5, R6) -/

section
variable {lead : Nat}

/-- Header octets before the last are kept. -/
theorem RxFrame.foldl_push_of_header (octets : List Byte) {f : RxFrame} (h : f.count + octets.length < lead + 8) :
    octets.foldl (RxFrame.push lead) f =
      { f with count := f.count + octets.length, fcs := octets.foldl fcsOctet f.fcs, head := f.head ++ octets } := by
  induction octets generalizing f with
  | nil => simp
  | cons v octets ih =>
    rw [List.length_cons] at h
    rw [List.foldl_cons, RxFrame.push_of_header (by omega), ih (by simp only; omega)]
    simp [Nat.add_assoc, Nat.add_comm 1]

theorem RxFrame.foldl_push_of_info (octets : List Byte) {f : RxFrame} (after : lead + 8 ≤ f.count)
    (h : f.count + octets.length ≤ lead + 8 + f.length) :
    octets.foldl (RxFrame.push lead) f =
      { f with count := f.count + octets.length, fcs := octets.foldl fcsOctet f.fcs } := by
  induction octets generalizing f with
  | nil => rfl
  | cons v octets ih =>
    rw [List.length_cons] at h
    rw [List.foldl_cons, RxFrame.push_of_info after (by omega),
      ih (by simp only; omega) (by simp only [RxFrame.length] at h ⊢; omega)]
    simp [Nat.add_assoc, Nat.add_comm 1]

/-- A whole header: its octets kept, the declared length taken from them. -/
theorem RxFrame.foldl_push_of_whole_header {head : List Byte} (h : head.length = lead + 8) :
    head.foldl (RxFrame.push lead) RxFrame.empty = ⟨lead + 8, fcsOf head, head, some (declaredIn lead head), []⟩ := by
  obtain rfl | ⟨first, last, rfl⟩ := List.eq_nil_or_concat head
  · rw [List.length_nil] at h
    omega
  · rw [List.concat_eq_append, List.length_append, List.length_singleton] at h
    rw [List.concat_eq_append, List.foldl_append, RxFrame.foldl_push_of_header first (by simp [RxFrame.empty]; omega),
      List.foldl_cons, RxFrame.push_of_last (by simp [RxFrame.empty]; omega)]
    simp [RxFrame.empty, fcsOf, h]

/-- A whole frame: header, as many info octets as it declares, and two FCS octets. -/
theorem RxFrame.foldl_push_of_whole_frame {head info : List Byte} (h : head.length = lead + 8)
    (declared : declaredIn lead head = info.length) (lo hi : Byte) :
    (head ++ info ++ [lo, hi]).foldl (RxFrame.push lead) RxFrame.empty =
      ⟨lead + 8 + info.length + 2, fcsOf (head ++ info), head, some info.length, [lo, hi]⟩ := by
  rw [List.foldl_append, List.foldl_append, RxFrame.foldl_push_of_whole_header h, declared,
    RxFrame.foldl_push_of_info info (Nat.le_refl _) (by simp [RxFrame.length]), List.foldl_cons,
    RxFrame.push_of_check (by simp [RxFrame.length]), List.foldl_cons, RxFrame.push_of_check (by simp [RxFrame.length])]
  simp [fcsOf]

end

/-! ### The FCS (R10, R11) -/

theorem extract_octets (w : Word16) : (w.extractLsb' 8 8 ++ w.extractLsb' 0 8 : Word16) = w := by
  rw [BitVec.extractLsb'_append_extractLsb'_eq_extractLsb' (by rfl)]
  exact BitVec.extractLsb'_eq_self

theorem fcsGood_of_fcsField {f : RxFrame} {octets : List Byte} (check : f.check = fcsField octets)
    (remainder : f.fcs = fcsOf octets) : f.fcsGood = true := by
  rw [RxFrame.fcsGood, check, fcsField]
  simp [remainder, extract_octets]

/-! ### The header (11.1) -/

theorem num16_be16 {n : Nat} (h : n ≤ 65535) : num16 (oct (n / 256)) (oct n) = n := by
  simp only [num16, oct, BitVec.toNat_ofNat]
  omega

/-- The tally octet's bits hold the hops and the two marks apart. -/
theorem Tally.octet_table : ∀ (hops : Fin 64) (claimed refused : Bool),
    (⟨hops, claimed, refused⟩ : Tally).octet =
        oct (hops + (if claimed then 64 else 0) + (if refused then 128 else 0)) ∧
      Tally.ofOctet (⟨hops, claimed, refused⟩ : Tally).octet = ⟨hops, claimed, refused⟩ := by
  decide

section
variable {t : Tally} (h : t.hops ≤ 63)
include h

theorem Tally.octet_eq :
    t.octet = oct (t.hops + (if t.claimed then 64 else 0) + (if t.refused then 128 else 0)) :=
  (Tally.octet_table ⟨t.hops, by omega⟩ t.claimed t.refused).1

theorem Tally.ofOctet_octet : Tally.ofOctet t.octet = t :=
  (Tally.octet_table ⟨t.hops, by omega⟩ t.claimed t.refused).2

end

theorem Header.ofOctets_octets {h : Header} (hops : h.tally.hops ≤ 63) (declared : h.declared ≤ 65535) :
    Header.ofOctets 0 h.octets = h := by
  have length : declaredIn 0 h.octets = h.declared := num16_be16 declared
  have tally : Tally.ofOctet (h.octets.getD 5 0) = h.tally := Tally.ofOctet_octet hops
  rw [Header.ofOctets, length, tally]
  rfl

/-! ### The frame -/

/-- A frame sent with the FCS the part makes is received whole. -/
theorem RxFrame.foldl_push_loopFrame {h : Header} {info : List Byte} (declared : h.declared = info.length)
    (short : info.length ≤ 65535) :
    (loopFrame h info).foldl (RxFrame.push 0) RxFrame.empty =
      ⟨8 + info.length + 2, fcsOf (h.octets ++ info), h.octets, some info.length, fcsField (h.octets ++ info)⟩ := by
  have length : declaredIn 0 h.octets = info.length := by
    rw [← declared] at short ⊢
    exact num16_be16 short
  have whole := RxFrame.foldl_push_of_whole_frame (lead := 0) (head := h.octets) rfl length
  rw [Nat.zero_add] at whole
  exact whole _ _

/-- Settles O6: the receiver's frame after a whole frame sent, read field by field. -/
theorem sentFrameEndsGood : Obligations.SentFrameEndsGood := by
  refine ⟨fun rem b => rfl, fun rem v => rfl, fun octets => rfl, fun h info hops declared short => ?_⟩
  have received := RxFrame.foldl_push_loopFrame declared short
  intro f tally
  rw [show f = _ from received]
  refine ⟨?_, rfl, rfl, ?_, Header.ofOctets_octets hops (declared ▸ short)⟩
  · rw [← Tally.octet_eq hops]
    rfl
  · rw [RxFrame.judge_eq_good_iff]
    exact ⟨rfl, by simp only; omega, by simp only [RxFrame.length, Option.getD_some]; omega,
      fcsGood_of_fcsField rfl rfl⟩

end Sys2Proof.Machine
end

section
/-! SUPPORT. What an operation leaves of the configuration, the tables, the figures, the requests and the copies in
transit: one relation, kept by every operation but those that are there to change them. -/

namespace Sys2Proof.Machine

/-! ### The relation -/

/-- Every frame in transit stood in the queue before, with the same header and reservation. -/
def TransitFrom (queue before : List TransitEntry) : Prop :=
  ∀ e ∈ queue, ∃ e0 ∈ before, e0.header = e.header ∧ e0.reservation = e.reservation

theorem TransitFrom.of_subset {queue before : List TransitEntry} (h : queue ⊆ before) : TransitFrom queue before :=
  fun e he => ⟨e, h he, rfl, rfl⟩

theorem TransitFrom.head {e e' : TransitEntry} (header : e'.header = e.header) (reservation : e'.reservation = e.reservation)
    (es : List TransitEntry) : TransitFrom (e' :: es) (e :: es) := by
  intro x hx
  rcases List.mem_cons.1 hx with rfl | hx
  · exact ⟨e, List.mem_cons_self, header.symm, reservation.symm⟩
  · exact ⟨x, List.mem_cons_of_mem _ hx, rfl, rfl⟩

theorem TransitFrom.modifyLast {f : TransitEntry → TransitEntry} (header : ∀ e, (f e).header = e.header)
    (reservation : ∀ e, (f e).reservation = e.reservation) (p : TransitEntry → Bool) (queue : List TransitEntry) :
    TransitFrom (modifyLast p f queue) queue := by
  rcases queue.eq_nil_or_concat' with rfl | ⟨older, e, rfl⟩
  · exact .of_subset (List.Subset.refl _)
  · intro x hx
    rw [modifyLast_append] at hx
    rcases List.mem_append.1 hx with hx | hx
    · exact ⟨x, List.mem_append_left _ hx, rfl, rfl⟩
    · refine ⟨e, by simp, ?_⟩
      obtain rfl := List.mem_singleton.1 hx
      split
      · exact ⟨(header e).symm, (reservation e).symm⟩
      · exact ⟨rfl, rfl⟩

/-- What no operation moves but the reset pin's commands, a millisecond, an insertion's start and a first send. -/
def State.fixedPart (s : State) :=
  (s.strapped, s.mode, s.timer, s.resetAsserted, s.pending, s.logSeq, s.noticeSeq)

/-- What only a request changes, but for the hit counts. -/
def State.settings (s : State) := (s.params, s.identity, s.managers, s.epoch, s.active)

/-- `t` has the settings of `s`, and of its session, its complete requests and its frames in transit none that `s` has
not; its figures are in range where those of `s` are. -/
structure State.Keeps (s t : State) : Prop where
  fixed : t.fixedPart = s.fixedPart
  settings : t.settings = s.settings
  session : t.session = s.session ∨ t.session = none
  requests : ∀ r ∈ t.requests, r.complete = true → r ∈ s.requests
  transit : TransitFrom t.transit s.transit
  fairness : t.fairness ≤ max s.fairness Config.maxFairness
  discarded : t.discarded ≤ max s.discarded Config.maxOctet
  flushed : t.flushed ≤ max s.flushed Config.maxOctet
  slots : s.params.noticeRetries ≤ 7 → ∀ k : Fin 8, (s.slots.get k).inRange = true → (t.slots.get k).inRange = true

theorem State.Keeps.refl (s : State) : s.Keeps s where
  fixed := rfl
  settings := rfl
  session := .inl rfl
  requests := fun _ hr _ => hr
  transit := fun e he => ⟨e, he, rfl, rfl⟩
  fairness := le_max_left _ _
  discarded := le_max_left _ _
  flushed := le_max_left _ _
  slots := fun _ _ h => h

/-- All of the state that the relation reads. -/
def State.keptPart (s : State) :=
  (s.fixedPart, s.settings, s.session, s.requests, s.transit, s.fairness, s.discarded, s.flushed, s.slots)

/-- An operation on the rest of the state. -/
theorem State.Keeps.of_keptPart {s t : State} (h : t.keptPart = s.keptPart) : s.Keeps t := by
  simp only [State.keptPart, Prod.mk.injEq] at h
  obtain ⟨fixed, settings, session, requests, transit, fairness, discarded, flushed, slots⟩ := h
  refine ⟨fixed, settings, .inl session, ?_, ?_, ?_, ?_, ?_, ?_⟩
  · exact fun r hr _ => requests ▸ hr
  · exact fun e he => ⟨e, transit ▸ he, rfl, rfl⟩
  · exact fairness ▸ le_max_left _ _
  · exact discarded ▸ le_max_left _ _
  · exact flushed ▸ le_max_left _ _
  · exact fun _ k h => slots ▸ h

/-- An operation on the rest of the state, the requests and the queue of copies. -/
theorem State.Keeps.of_queues {s t : State}
    (h : ({ t with requests := s.requests, transit := s.transit } : State).keptPart = s.keptPart)
    (requests : ∀ r ∈ t.requests, r.complete = true → r ∈ s.requests) (transit : TransitFrom t.transit s.transit) :
    s.Keeps t :=
  { State.Keeps.of_keptPart h with requests := requests, transit := transit }

section
variable {s t u : State} (h : s.Keeps t)
include h

theorem State.Keeps.with_transit (queue : List TransitEntry) :
    ({ s with transit := queue } : State).Keeps { t with transit := queue } :=
  { h with transit := .of_subset (List.Subset.refl _) }

theorem State.Keeps.params : t.params = s.params := congrArg (fun x => x.1) h.settings

theorem State.Keeps.identity : t.identity = s.identity := congrArg (fun x => x.2.1) h.settings

theorem State.Keeps.managers : t.managers = s.managers := congrArg (fun x => x.2.2.1) h.settings

theorem State.Keeps.epoch : t.epoch = s.epoch := congrArg (fun x => x.2.2.2.1) h.settings

theorem State.Keeps.active : t.active = s.active := congrArg (fun x => x.2.2.2.2) h.settings

theorem State.Keeps.trans (k : t.Keeps u) : s.Keeps u where
  fixed := k.fixed.trans h.fixed
  settings := k.settings.trans h.settings
  session := k.session.elim (fun e => e ▸ h.session) .inr
  requests := fun r hr hc => h.requests r (k.requests r hr hc) hc
  transit := fun e he =>
    have ⟨e1, he1, header1, reservation1⟩ := k.transit e he
    have ⟨e0, he0, header0, reservation0⟩ := h.transit e1 he1
    ⟨e0, he0, header0.trans header1, reservation0.trans reservation1⟩
  fairness := by have := h.fairness; have := k.fairness; omega
  discarded := by have := h.discarded; have := k.discarded; omega
  flushed := by have := h.flushed; have := k.flushed; omega
  slots := fun hn i hi => k.slots (h.params ▸ hn) i (h.slots hn i hi)

end

/-! ### Counts, reports and the return log -/

theorem State.keeps_count (s : State) (c : Counter) : s.Keeps (s.count c) := .of_keptPart rfl

theorem State.keeps_causeStatus (s : State) : s.Keeps s.causeStatus := by
  obtain ⟨_, _, h⟩ := s.causeStatus_frame
  rw [h]
  exact .of_keptPart rfl

theorem saturate_le (n : Nat) : saturate n ≤ Config.maxOctet := Nat.min_le_right _ _

theorem State.keeps_discard (s : State) : s.Keeps s.discard :=
  have counted : s.Keeps { s.count .portDiscarded with discarded := saturate (s.discarded + 1) } :=
    { State.Keeps.refl s with discarded := le_max_of_le_right (saturate_le _) }
  counted.trans (State.keeps_causeStatus _)

theorem State.keeps_refuse (s : State) (tag : Tag) (cls : StationClass) (reason : Reason) :
    s.Keeps (s.refuse tag cls reason) := by
  unfold State.refuse
  split
  · exact .of_keptPart rfl
  · exact s.keeps_discard

theorem State.keeps_stripHeader (s : State) (h : Header) : s.Keeps (s.stripHeader h) := by
  obtain ⟨_, _, _, e⟩ := s.stripHeader_frame h
  rw [e]
  exact .of_keptPart rfl

theorem State.keeps_expireLog (s : State) : s.Keeps s.expireLog := .of_keptPart rfl

/-! ### Notice slots (R177, R178, R181, R183) -/

theorem slots_set_inRange {v : Vector Slot 8} {i : Fin 8} {x : Slot}
    (hx : (v.get i).inRange = true → x.inRange = true) (j : Fin 8) (hj : (v.get j).inRange = true) :
    ((v.set i x).get j).inRange = true := by
  have get : ∀ (w : Vector Slot 8) (k : Fin 8), w.get k = w[k.val] := fun _ _ => rfl
  rw [get, Vector.getElem_set]
  split
  · rename_i same
    obtain rfl := Fin.ext same
    exact hx hj
  · exact hj

theorem Slot.raise_inRange (d : Detail) {x : Slot} (h : x.inRange = true) : (x.raise d).inRange = true := by
  cases x with
  | idle => rfl
  | pending occ d' => simp [Slot.inRange, Slot.raise, saturate, Config.maxOctet]
  | outstanding n =>
    simp only [Slot.inRange, decide_eq_true_eq] at h
    obtain ⟨-, -, -, sends, most, waits⟩ := h
    simp only [Slot.inRange, Slot.raise, saturate, Config.maxOctet, decide_eq_true_eq]
    exact ⟨by omega, by omega, by omega, sends, most, waits⟩

theorem State.keeps_raise (s : State) (k : NoticeKind) (d : Detail) : s.Keeps (s.raise k d) :=
  { State.Keeps.refl s with slots := fun _ j hj => slots_set_inRange (Slot.raise_inRange d) j hj }

theorem State.keeps_setSlot (s : State) (k : NoticeKind) {x : Slot}
    (h : s.params.noticeRetries ≤ 7 → (s.slot k).inRange = true → x.inRange = true) : s.Keeps (s.setSlot k x) :=
  { State.Keeps.refl s with slots := fun hn j hj => slots_set_inRange (h hn) j hj }

/-- A resend is due only up to NOTICE_RETRIES sends, so a waiting resend has made at most seven. -/
theorem State.keeps_retryDeadline (s : State) (k : NoticeKind) : s.Keeps (s.retryDeadline k) := by
  unfold State.retryDeadline
  split
  · rename_i n hn
    split
    · split
      · split
        · rename_i few
          refine s.keeps_setSlot k fun retries range => ?_
          rw [hn] at range
          simp only [Slot.inRange, decide_eq_true_eq] at range ⊢
          omega
        · exact (s.keeps_setSlot k fun _ _ => rfl).trans (State.keeps_count _ _)
      · exact .refl s
    · exact .refl s
  · exact .refl s

theorem State.keeps_resendOf (s : State) (k : NoticeKind) : s.Keeps (s.resendOf k) := by
  unfold State.resendOf
  split
  · rename_i n hn
    split
    · rename_i waits
      have placed : s.Keeps (s.placeNotice k n.seq n.occurrences n.detail) := .of_keptPart rfl
      refine placed.trans (State.keeps_setSlot _ k fun _ range => ?_)
      have range : (s.slot k).inRange = true := range
      rw [hn] at range
      simp only [Bool.and_eq_true, Option.isNone_iff_eq_none] at waits
      simp only [Slot.inRange, decide_eq_true_eq, State.resent] at range ⊢
      obtain ⟨least, most, -, -, -, few⟩ := range
      have few := few waits.1
      exact ⟨least, most, Nat.zero_le _, Nat.le_add_left _ _, by omega, by simp⟩
    · exact .refl s
  · exact .refl s

theorem State.keeps_resendWaiting (s : State) : s.Keeps s.resendWaiting := by
  have all : ∀ (l : List NoticeKind) (s : State), s.Keeps (l.foldl State.resendOf s) := by
    intro l
    induction l with
    | nil => exact State.Keeps.refl
    | cons k l ih => exact fun s => (s.keeps_resendOf k).trans (ih _)
  exact all _ s

/-- A first send moves the notice sequence by one. -/
theorem State.keeps_sendFirst (s : State) :
    ∃ n, (n = s.noticeSeq ∨ n = s.noticeSeq + 1) ∧ ({ s with noticeSeq := n } : State).Keeps s.sendFirst := by
  have same : ∃ n, (n = s.noticeSeq ∨ n = s.noticeSeq + 1) ∧ ({ s with noticeSeq := n } : State).Keeps s :=
    ⟨_, .inl rfl, .refl s⟩
  unfold State.sendFirst
  split
  · rename_i k _
    split
    · unfold State.firstSend
      split
      · rename_i occ d hk
        refine ⟨s.noticeSeq + 1, .inr rfl, { State.Keeps.refl _ with slots := fun _ j hj => ?_ }⟩
        refine slots_set_inRange (fun range => ?_) j hj
        have range : (s.slot k).inRange = true := range
        rw [hk] at range
        simp only [Slot.inRange, decide_eq_true_eq, State.firstSent] at range ⊢
        exact ⟨range.1, range.2, by simp⟩
      · exact same
    · exact same
  · exact same

theorem State.keeps_placeNotices (s : State) :
    ∃ n, (n = s.noticeSeq ∨ n = s.noticeSeq + 1) ∧ ({ s with noticeSeq := n } : State).Keeps s.placeNotices := by
  obtain ⟨n, hn, h⟩ := s.keeps_sendFirst
  exact ⟨n, hn, h.trans (State.keeps_resendWaiting _)⟩

/-! ### Copies in transit (R46, R50 to R58) -/

theorem TransitEntry.sendOctet_header (e : TransitEntry) : e.sendOctet.header = e.header := by
  unfold TransitEntry.sendOctet
  split <;> rfl

theorem TransitEntry.sendOctet_reservation (e : TransitEntry) : e.sendOctet.reservation = e.reservation := by
  unfold TransitEntry.sendOctet
  split <;> rfl

@[simp] theorem TransitEntry.takeOctet_reservation (e : TransitEntry) (v : Byte) :
    (e.takeOctet v).reservation = e.reservation := by
  unfold TransitEntry.takeOctet
  split <;> rfl

theorem TransitEntry.finish_header (e : TransitEntry) : e.finish.header = e.header := rfl

theorem TransitEntry.finish_reservation (e : TransitEntry) : e.finish.reservation = e.reservation := rfl

theorem State.keeps_octetTime (s : State) : s.Keeps s.octetTime := by
  unfold State.octetTime
  split
  · rename_i e es _ ht
    exact { State.Keeps.refl s with
      transit := by rw [ht]; exact .head e.sendOctet_header e.sendOctet_reservation es }
  · exact .refl s

theorem State.keeps_octetTimes (n : Nat) (s : State) : s.Keeps (s.octetTimes n) := by
  induction n generalizing s with
  | zero => exact .refl s
  | succ n ih => exact s.keeps_octetTime.trans (ih _)

theorem State.keeps_underrun (s : State) : s.Keeps s.underrun := by
  unfold State.underrun
  split
  · exact .refl s
  · rename_i e es ht
    split
    · refine ((s.keeps_count .underrun).trans (State.keeps_raise _ .underrun (.address e.header.sa))).trans ?_
      exact { State.Keeps.refl _ with
        transit := by
          rw [State.raise_transit, State.count_transit, ht]
          exact .head (e := e) (e' := { e with sending := .abandoned }) rfl rfl es }
    · exact .refl s

theorem State.keeps_completeForward (s : State) : s.Keeps s.completeForward := by
  unfold State.completeForward
  split
  · exact .refl s
  · rename_i e es ht
    split
    · exact { State.Keeps.refl s with transit := by rw [ht]; exact .of_subset (List.subset_cons_self e es) }
    · exact .refl s

theorem State.endTransit_from (s : State) (good : Bool) : TransitFrom (s.endTransit good).transit s.transit := by
  have dropped : TransitFrom s.transit.dropLast s.transit := .of_subset (List.dropLast_subset _)
  unfold State.endTransit
  split
  · exact .of_subset (List.Subset.refl _)
  · split
    · exact dropped
    · exact .modifyLast TransitEntry.finish_header TransitEntry.finish_reservation _ _
    · exact dropped
    · exact dropped

/-! ### The frame's end (R9, R134) -/

/-- The state with the request that collects its octets complete, as a GOOD end makes it. -/
def State.completed (s : State) : State :=
  { s with requests := s.requests.map (fun r => if r.collecting then { r with complete := true } else r) }

theorem State.mem_completed {s : State} {r : Request} (h : r ∈ s.requests) (hc : r.complete = true) :
    r ∈ s.completed.requests :=
  List.mem_map.2 ⟨r, h, by rw [if_neg (by simp [Request.collecting_eq_false hc])]⟩

theorem State.frameEnd_transit_from (s : State) (c : EndCond) : TransitFrom (s.frameEnd c).transit s.transit := by
  cases hv : s.verdict with
  | none =>
    rw [State.frameEnd_of_no_verdict hv]
    split <;> exact .of_subset (List.Subset.refl _)
  | some r =>
    rw [State.frameEnd_transit hv]
    split
    · exact s.endTransit_from _
    · exact .of_subset (List.Subset.refl _)

/-- A frame's end completes at most the request that collects, and that at a GOOD end alone (R134). -/
theorem State.frameEnd_complete {s : State} {c : EndCond} {r : Request} (h : r ∈ (s.frameEnd c).requests)
    (hc : r.complete = true) : r ∈ s.completed.requests ∧ (c ≠ .good → r ∈ s.requests) := by
  have here : r ∈ s.requests → r ∈ s.completed.requests ∧ (c ≠ .good → r ∈ s.requests) :=
    fun h => ⟨State.mem_completed h hc, fun _ => h⟩
  cases hv : s.verdict with
  | none =>
    rw [State.frameEnd_of_no_verdict hv] at h
    split at h <;> exact here h
  | some v =>
    rw [State.frameEnd_requests_eq hv, State.endRequest_requests] at h
    split at h
    · split at h
      · rename_i good
        exact ⟨h, fun bad => absurd (c.isGood_iff.1 good) bad⟩
      · exact here (List.mem_filter.1 h).1
    · exact here h

theorem State.completed_keeps_frameEnd (s : State) (c : EndCond) : s.completed.Keeps (s.frameEnd c) := by
  refine .of_queues ?_ (fun r hr hc => (State.frameEnd_complete hr hc).1) (s.frameEnd_transit_from c)
  obtain ⟨_, _, _, _, _, _, _, h⟩ := s.frameEnd_frame c
  rw [h]
  rfl

theorem State.keeps_frameEnd {c : EndCond} (bad : c ≠ .good) (s : State) : s.Keeps (s.frameEnd c) := by
  refine .of_queues ?_ (fun r hr hc => (State.frameEnd_complete hr hc).2 bad) (s.frameEnd_transit_from c)
  obtain ⟨_, _, _, _, _, _, _, h⟩ := s.frameEnd_frame c
  rw [h]
  rfl

/-! ### The loop receive line -/

/-- Neither the receiver nor the supervisor is read. -/
theorem State.keeps_rx (s : State) (rx : LoopRx) (sup : Supervisor) : s.Keeps { s with rx := rx, sup := sup } :=
  .of_keptPart rfl

theorem State.keeps_superviseFlag (s : State) (c : Option EndCond) : s.Keeps (s.superviseFlag c) := by
  unfold State.superviseFlag
  dsimp only
  split
  · refine State.Keeps.trans ?_ (State.keeps_raise _ _ _)
    exact s.keeps_rx _ _
  · exact s.keeps_rx _ _

theorem State.completed_keeps_loopFlag (s : State) (tail : List Bool) : s.completed.Keeps (s.loopFlag tail) := by
  have same : s.completed.Keeps s := { State.Keeps.refl s with requests := fun r => State.mem_completed }
  unfold State.loopFlag
  dsimp only
  refine State.Keeps.trans ?_ (State.keeps_superviseFlag _ _)
  split
  · exact (s.completed_keeps_frameEnd _).trans (State.keeps_rx _ _ _)
  · exact same.trans (s.keeps_rx _ _)

theorem State.keeps_abortFrame (s : State) (reason : AbortReason) : s.Keeps (s.abortFrame reason) := by
  unfold State.abortFrame
  split
  · exact State.keeps_frameEnd (by simp) s
  · exact .refl s

theorem State.keeps_loopOnes (s : State) (run : Nat) : s.Keeps (s.loopOnes run) :=
  (s.keeps_abortFrame .abort).trans (State.keeps_rx _ _ _)

theorem State.keeps_silence (s : State) : s.Keeps s.silence := by
  unfold State.silence
  split
  · exact ((s.keeps_raise _ _).trans (State.keeps_abortFrame _ .silence)).trans (State.keeps_rx _ _ _)
  · exact .refl s

/-- An info octet reaches a request only while it is incomplete (R134). -/
theorem State.keeps_infoOctet (s : State) (v : Byte) : s.Keeps (s.infoOctet v) := by
  rw [State.infoOctet_eq]
  refine .of_queues rfl (fun r hr hc => ?_) ?_
  · dsimp only at hr
    split at hr
    · obtain ⟨q, hq, rfl⟩ := List.mem_map.1 hr
      split at hc
      · rename_i collects
        have complete : q.complete = true := hc
        rw [Request.collecting_eq_false complete] at collects
        cases collects
      · rename_i rests
        rwa [if_neg rests]
    · exact hr
  · dsimp only
    split
    · exact .modifyLast (fun e => e.takeOctet_header v) (fun e => e.takeOctet_reservation v) _ _
    · exact .of_subset (List.Subset.refl _)

/-! ### The eighth octet (R29, R31, R41, R47) -/

/-- The entry a header that is forwarded makes: hops are below HOP_LIMIT, and no identity has sent it (R33, R34, R41). -/
def State.Forwards (s : State) (h : Header) (e : TransitEntry) : Prop :=
  h.tally.hops < s.params.hopLimit ∧ (s.mode = .service → some h.sa ∉ s.identity.toList) ∧
    ∃ marks, e = TransitEntry.start h marks

/-- The verdicts that hand the frame to the transit path (R39). -/
def Verdict.forwards : Verdict → Bool
  | .manage => true
  | .pass => true
  | .copy => true
  | _ => false

theorem State.find_forwards {s : State} {h : Header} (hf : (s.find h).verdict.forwards = true) :
    h.tally.hops < s.params.hopLimit ∧ (s.mode = .service → some h.sa ∉ s.identity.toList) := by
  unfold State.find at hf
  split at hf
  · split at hf
    · cases hf
    split at hf
    · cases hf
    split at hf
    · cases hf
    · rename_i foreign near
      exact ⟨Nat.not_le.1 near, fun _ => mt (s.isIdentity_iff h.sa).2 foreign⟩
  · rename_i repeater
    split at hf
    · cases hf
    split at hf
    · cases hf
    · rename_i near
      exact ⟨Nat.not_le.1 near, fun service => by rw [repeater] at service; cases service⟩

theorem State.keeps_reserveTransit (s : State) (h : Header) (marks : Option Mark) :
    ∃ transit, (∀ e ∈ transit, e ∈ s.transit ∨ e = TransitEntry.start h marks) ∧
      ({ s with transit := transit } : State).Keeps (s.reserveTransit h marks) := by
  unfold State.reserveTransit
  split
  · exact ⟨s.transit ++ [TransitEntry.start h marks], fun e he => by simpa using he, .refl _⟩
  · exact ⟨s.transit, fun e he => .inl he, (s.keeps_count _).trans (State.keeps_raise _ _ _)⟩

/-- The same where the transit path's own state has come from another by operations that leave its queue alone. -/
theorem State.Keeps.reserveTransit {s t : State} (k : s.Keeps t) (same : t.transit = s.transit) (h : Header)
    (marks : Option Mark) :
    ∃ transit, (∀ e ∈ transit, e ∈ s.transit ∨ ∃ marks, e = TransitEntry.start h marks) ∧
      ({ s with transit := transit } : State).Keeps (t.reserveTransit h marks) := by
  obtain ⟨transit, made, k'⟩ := t.keeps_reserveTransit h marks
  exact ⟨transit, fun e he => (made e he).imp (same ▸ ·) (⟨marks, ·⟩), (k.with_transit transit).trans k'⟩

theorem State.keeps_reserveDelivery (s : State) (h : Header) (label : Option Byte) :
    s.Keeps (s.reserveDelivery h label).2 := by
  unfold State.reserveDelivery
  split
  · exact .of_keptPart rfl
  · exact (s.keeps_count _).trans (State.keeps_raise _ _ _)

/-- The classifier's request joins incomplete (R134). -/
theorem State.keeps_offerRequest (s : State) (sa : Address) : s.Keeps (s.offerRequest sa).2 := by
  unfold State.offerRequest
  split
  · refine { State.Keeps.refl s with requests := fun r hr hc => ?_ }
    rcases List.mem_append.1 hr with hr | hr
    · exact hr
    · rw [List.mem_singleton.1 hr] at hc
      cases hc
  · exact s.keeps_count _

/-- A hit count stays within its range (R29). -/
theorem State.hitMatched_hits (s : State) (f : Finding) (h : ∀ e ∈ s.active, e.hits ≤ Config.maxHits) :
    ∀ e ∈ (s.hitMatched f).active, e.hits ≤ Config.maxHits := by
  unfold State.hitMatched
  split
  · rename_i p _
    intro e he
    obtain ⟨i, hi⟩ := List.mem_iff_getElem?.1 he
    rw [List.getElem?_modify] at hi
    cases hx : s.active[i]? with
    | none => simp [hx] at hi
    | some x =>
      have := h x (List.mem_of_getElem? hx)
      rw [hx] at hi
      split at hi
      · obtain rfl := Option.some.inj hi
        exact Nat.min_le_right _ _
      · obtain rfl := Option.some.inj hi
        exact this
  · exact h

/-- The eighth octet changes hit counts and the queue of copies, and nothing else that the relation reads. -/
theorem State.keeps_judgeHeader (s : State) (h : Header) (f : Finding) :
    ∃ active transit, (active = s.active ∨ active = (s.hitMatched f).active) ∧
      (∀ e ∈ transit, e ∈ s.transit ∨ f.verdict.forwards = true ∧ ∃ marks, e = TransitEntry.start h marks) ∧
      ({ s with active := active, transit := transit } : State).Keeps (s.judgeHeader h f) := by
  have verdict : ∀ (t : State) (v : Option VerdictRecord), t.Keeps { t with verdict := v } := fun t v => .of_keptPart rfl
  obtain ⟨hit, hit_eq, -⟩ := s.hitMatched_frame f
  rw [hit_eq]
  unfold State.judgeHeader
  dsimp only
  split
  · exact ⟨s.active, s.transit, .inl rfl, fun e he => .inl he, .of_keptPart rfl⟩
  · exact ⟨s.active, s.transit, .inl rfl, fun e he => .inl he, (s.keeps_stripHeader h).trans (verdict _ _)⟩
  · exact ⟨s.active, s.transit, .inl rfl, fun e he => .inl he,
      ((s.keeps_count _).trans (State.keeps_raise _ _ _)).trans (verdict _ _)⟩
  · rename_i hv
    obtain ⟨_, _, same⟩ := s.offerRequest_frame h.sa
    obtain ⟨transit, made, k⟩ := (s.keeps_offerRequest h.sa).reserveTransit (by rw [same]) h
      (some (s.offerRequest h.sa).1.mark)
    exact ⟨s.active, transit, .inl rfl, fun e he => (made e he).imp_right (⟨by rw [hv]; rfl, ·⟩), k.trans (verdict _ _)⟩
  · rename_i hv
    obtain ⟨transit, made, k⟩ := (State.Keeps.refl (s.hitMatched f)).reserveTransit rfl h none
    rw [hit_eq] at made k ⊢
    exact ⟨hit, transit, .inr rfl, fun e he => (made e he).imp_right (⟨by rw [hv]; rfl, ·⟩), k.trans (verdict _ _)⟩
  · rename_i hv
    obtain ⟨_, _, _, _, same⟩ := (s.hitMatched f).reserveDelivery_frame h ((s.matched f).map (fun x => x.rule.label))
    obtain ⟨transit, made, k⟩ := ((s.hitMatched f).keeps_reserveDelivery h _).reserveTransit (by rw [same]) h _
    rw [hit_eq] at made k ⊢
    exact ⟨hit, transit, .inr rfl, fun e he => (made e he).imp_right (⟨by rw [hv]; rfl, ·⟩), k.trans (verdict _ _)⟩
  · rw [hit_eq]
    exact ⟨hit, s.transit, .inr rfl, fun e he => .inl he, .of_keptPart rfl⟩

end Sys2Proof.Machine
end

section
/-! SUPPORT. Every command as its block's effect and the end of the event, and what that effect keeps: the relation
`State.Keeps` from the state itself, or from the state with the one change the command is there to make. -/

namespace Sys2Proof.Machine

/-! ### Insertion (R71 to R76) -/

theorem State.keeps_causeIfWasFull (s : State) (before : Nat) : s.Keeps (s.causeIfWasFull before) := by
  unfold State.causeIfWasFull
  split
  · exact s.keeps_causeStatus
  · exact .refl s

/-- What the candidates' order can come to (R72, R74). -/
theorem State.insert_cases (s : State) :
    s.insert = s ∨ (∃ f rest, s.insert = s.startOwn f rest) ∨ (∃ f rest, s.insert = s.startUrgent f rest) ∨
      ∃ f rest, s.insert = s.startNormal f rest := by
  have own : s.tryOwn = none ∨ ∃ f rest, s.tryOwn = some (s.startOwn f rest) := by
    unfold State.tryOwn
    split
    · split
      · exact .inr ⟨_, _, rfl⟩
      · exact .inl rfl
    · exact .inl rfl
  have urgent : s.tryUrgent = none ∨ ∃ f rest, s.tryUrgent = some (s.startUrgent f rest) := by
    unfold State.tryUrgent
    split
    · split
      · exact .inr ⟨_, _, rfl⟩
      · exact .inl rfl
    · exact .inl rfl
  have normal : s.tryNormal = none ∨ ∃ f rest, s.tryNormal = some (s.startNormal f rest) := by
    unfold State.tryNormal
    split
    · split
      · exact .inr ⟨_, _, rfl⟩
      · exact .inl rfl
    · exact .inl rfl
  unfold State.insert
  split
  · rcases normal with hn | ⟨f, rest, hn⟩
    · rcases own with ho | ⟨f, rest, ho⟩
      · rcases urgent with hu | ⟨f, rest, hu⟩
        · exact .inl (by rw [hn, ho, hu]; rfl)
        · exact .inr (.inr (.inl ⟨f, rest, by rw [hn, ho, hu]; rfl⟩))
      · exact .inr (.inl ⟨f, rest, by rw [hn, ho]; rfl⟩)
    · exact .inr (.inr (.inr ⟨f, rest, by rw [hn]; rfl⟩))
  · rcases own with ho | ⟨f, rest, ho⟩
    · rcases urgent with hu | ⟨f, rest, hu⟩
      · rcases normal with hn | ⟨f, rest, hn⟩
        · exact .inl (by rw [hn, ho, hu]; rfl)
        · exact .inr (.inr (.inr ⟨f, rest, by rw [hn, ho, hu]; rfl⟩))
      · exact .inr (.inr (.inl ⟨f, rest, by rw [ho, hu]; rfl⟩))
    · exact .inr (.inl ⟨f, rest, by rw [ho]; rfl⟩)

theorem State.fairnessAfter_le (s : State) : s.fairnessAfter ≤ max s.fairness Config.maxFairness := by
  unfold State.fairnessAfter
  split
  · exact le_max_left _ _
  · exact le_max_of_le_right (Nat.min_le_right _ _)

/-- An insertion's start moves the return-log sequence (R76, R84). -/
theorem State.keeps_insert (s : State) : ∃ n, ({ s with logSeq := n } : State).Keeps s.insert := by
  rcases s.insert_cases with h | ⟨f, rest, h⟩ | ⟨f, rest, h⟩ | ⟨f, rest, h⟩
  · rw [h]
    exact ⟨s.logSeq, .refl s⟩
  · rw [h]
    exact ⟨nextSeq s.logSeq s.log + 1, { State.Keeps.refl _ with fairness := s.fairnessAfter_le }⟩
  · rw [h]
    refine ⟨nextSeq s.logSeq s.log + 1, State.Keeps.trans ?_ (State.keeps_causeIfWasFull _ _)⟩
    exact { State.Keeps.refl _ with fairness := s.fairnessAfter_le }
  · rw [h]
    refine ⟨nextSeq s.logSeq s.log + 1, State.Keeps.trans ?_ (State.keeps_causeIfWasFull _ _)⟩
    exact { State.Keeps.refl _ with fairness := Nat.zero_le _ }

theorem State.keeps_arbitrate (s : State) : ∃ n, ({ s with logSeq := n } : State).Keeps s.arbitrate := by
  unfold State.arbitrate
  split
  · split
    · rename_i e es ht
      split
      · exact ⟨s.logSeq, { State.Keeps.refl s with
          transit := by rw [ht]; exact .head (e := e) (e' := { e with sending := .yes }) rfl rfl es }⟩
      · exact ⟨s.logSeq, .refl s⟩
    · exact s.keeps_insert
  · exact ⟨s.logSeq, .refl s⟩

theorem State.keeps_endInsertion (s : State) : s.Keeps s.endInsertion := by
  unfold State.endInsertion
  split
  · exact .of_keptPart rfl
  · exact .refl s

theorem State.keeps_completeAbort (s : State) : s.Keeps s.completeAbort := by
  unfold State.completeAbort
  split
  · exact .of_keptPart rfl
  · exact .refl s

/-! ### The station port -/

theorem State.keeps_srx (s : State) (x : StationRx) : s.Keeps { s with srx := x } := .of_keptPart rfl

/-- A break leaves the loop's requests and closes at most the station's session (R155, R174). -/
theorem State.keeps_breakEffects (s : State) : s.Keeps s.breakEffects := by
  have session : ∀ x, sessionAfterBreak x = x ∨ sessionAfterBreak x = none := by
    intro x
    unfold sessionAfterBreak
    split
    · split
      · exact .inr rfl
      · exact .inl rfl
    · exact .inl rfl
  exact { State.Keeps.refl s with
    session := session s.session
    requests := fun r hr _ => (List.mem_filter.1 hr).1
    discarded := Nat.zero_le _
    flushed := Nat.zero_le _ }

theorem State.keeps_startBreak (s : State) (bits : List Bool) : s.Keeps (s.startBreak bits) := by
  unfold State.startBreak
  split
  · exact (s.keeps_srx _).trans (State.keeps_breakEffects _)
  · exact .refl s

theorem State.keeps_breakInHunt (s : State) : s.Keeps s.breakInHunt := by
  unfold State.breakInHunt
  split
  · exact s.keeps_breakEffects
  · exact .refl s

theorem State.keeps_stationExcess (s : State) (v : Byte) (rest : List Bool) : s.Keeps (s.stationExcess v rest) := by
  unfold State.stationExcess
  exact ((s.keeps_srx _).trans (State.keeps_discard _)).trans (State.keeps_breakInHunt _)

theorem State.keeps_stationOctet (s : State) (v : Byte) (rest : List Bool) : s.Keeps (s.stationOctet v rest) := by
  unfold State.stationOctet
  dsimp only
  split
  · exact s.keeps_stationExcess v rest
  · split
    · exact (s.keeps_srx _).trans (State.keeps_breakEffects _)
    · exact s.keeps_srx _

theorem State.keeps_stationFlag (s : State) : s.Keeps s.stationFlag := by
  unfold State.stationFlag
  split
  · exact s.keeps_srx _
  · exact s.keeps_srx _
  · exact .refl s

theorem State.keeps_stationAbort (s : State) (idle : Bool) : s.Keeps (s.stationAbort idle) := by
  unfold State.stationAbort
  split
  · exact .refl s
  · exact s.keeps_srx _

theorem State.keeps_stationDiscard (s : State) (how : StationEnd) : s.Keeps (s.stationDiscard how) := by
  unfold State.stationDiscard
  split
  · split
    · split
      · exact .refl s
      · exact (s.keeps_srx _).trans (State.keeps_discard _)
    · split
      · exact s.keeps_stationExcess _ _
      · exact .refl s
    · exact (s.keeps_srx _).trans (State.keeps_discard _)
  · exact .refl s

theorem State.keeps_enqueue (s : State) (m : StationSubmission) : s.Keeps (s.enqueue m) := by
  unfold State.enqueue
  split
  · exact .of_keptPart rfl
  · refine { State.Keeps.refl s with fairness := ?_ }
    dsimp only
    split
    · exact Nat.zero_le _
    · exact le_max_left _ _

/-- An accepted frame adds at most its own request (R120, R135). -/
theorem State.keeps_accept (s : State) (m : StationSubmission) :
    ({ s with requests := s.requests ++ [⟨.station m.tag, m.info, true⟩] } : State).Keeps (s.accept m) := by
  have more : ({ s with requests := s.requests ++ [⟨.station m.tag, m.info, true⟩] } : State).Keeps s :=
    { State.Keeps.refl s with requests := fun r hr _ => List.mem_append_left _ hr }
  have refuse := fun reason => more.trans (s.keeps_refuse m.tag m.cls reason)
  unfold State.accept
  split
  · exact refuse _
  split
  · exact refuse _
  split
  · unfold State.offerLocal
    split
    · exact .refl _
    · exact (more.trans (s.keeps_count _)).trans (State.keeps_refuse _ _ _ _)
  split
  · exact refuse _
  split
  · exact refuse _
  · exact more.trans (s.keeps_enqueue m)

theorem State.keeps_portChoice (s : State) : s.Keeps s.portChoice := by
  unfold State.portChoice
  split
  · split
    · unfold State.beginRecord
      split
      · exact { State.Keeps.refl s with discarded := Nat.zero_le _, flushed := Nat.zero_le _ }
      · exact .of_keptPart rfl
    · exact .of_keptPart rfl
    · exact .of_keptPart rfl
    · exact .refl s
  · exact .refl s

theorem State.keeps_reportSent (s : State) : s.Keeps s.reportSent := by
  obtain ⟨_, _, _, _, _, _, h⟩ := s.reportSent_frame
  rw [h]
  exact .of_keptPart rfl

theorem State.keeps_portAbortSent (s : State) : s.Keeps s.portAbortSent := by
  unfold State.portAbortSent
  split
  · exact .of_keptPart rfl
  · exact .refl s

theorem State.keeps_endBreak (s : State) : s.Keeps s.endBreak := by
  unfold State.endBreak
  split
  · refine State.Keeps.trans ?_ (State.keeps_causeStatus _)
    exact .of_keptPart rfl
  · exact .refl s

/-! ### Sessions -/

theorem State.keeps_expireSession (s : State) : s.Keeps s.expireSession := by
  unfold State.expireSession
  split
  · exact .refl s
  · split
    · refine State.Keeps.trans ?_ (State.keeps_raise _ _ _)
      exact { State.Keeps.refl s with session := .inr rfl }
    · exact .refl s

/-! ### A command as its block's effect -/

/-- What a command's event begins with in its block. The rows of requests and of a notice's sends have no effect of their
own: the end of the event does what they name. -/
def blockEffect : Instr → State → State
  | .loopFlag tail times => fun s => (s.octetTimes times).loopFlag tail
  | .loopOctet v rest times => fun s => (s.octetTimes times).loopOctet v rest
  | .loopAbort => fun s => s.loopOnes 7
  | .lineIdle => fun s => s.loopOnes 15
  | .lineSilenceDeadline => State.silence
  | .arbiterChoice => State.arbitrate
  | .underrun times => fun s => (s.octetTimes times).underrun
  | .forwardComplete => State.completeForward
  | .insertionEnd => State.endInsertion
  | .abortComplete => State.completeAbort
  | .returnTimeoutExpiry => State.expireLog
  | .portBreak bits => fun s => s.startBreak bits
  | .portBreakEnd => State.endBreak
  | .stationFrameGood => State.stationGood
  | .stationFrameDiscard how => fun s => s.stationDiscard how
  | .portTxChoice => State.portChoice
  | .portReportSent => State.reportSent
  | .portTxAbortComplete => State.portAbortSent
  | .sessionTimeoutExpiry => State.expireSession
  | .noticeRetryDeadline k => fun s => s.retryDeadline k
  | .stationFlag _ => State.stationFlag
  | .stationOctet v rest => fun s => s.stationOctet v rest
  | .stationAbort idle => fun s => s.stationAbort idle
  | _ => id

/-- A ready head's own row does what the end of the event would do (R136, log entry 4). -/
theorem State.settle_serve (s : State) (c : Option Command) : (s.serve c (State.runOf c)).settle = s.settle := by
  rcases s.serve_cases c (State.runOf c) with h | ⟨r, ready, rfl, h⟩
  · rw [h]
  · rw [h, State.settle_of_some ready]
    rfl

theorem State.settle_engine (s : State) : s.engine.settle = s.settle := by
  unfold State.settle
  rw [State.engine_of_none s.engine_readyHead]

theorem State.resendOf_own (s : State) (k : NoticeKind) : s.own.length ≤ (s.resendOf k).own.length := by
  unfold State.resendOf
  split
  · split
    · simp [State.resend, State.placeNotice, State.setSlot]
    · exact Nat.le_refl _
  · exact Nat.le_refl _

/-- The waiting resends take places; they free none. -/
theorem State.resendWaiting_own (s : State) : s.own.length ≤ s.resendWaiting.own.length := by
  have all : ∀ (l : List NoticeKind) (s : State), s.own.length ≤ (l.foldl State.resendOf s).own.length := by
    intro l
    induction l with
    | nil => exact fun s => Nat.le_refl _
    | cons k l ih => exact fun s => (s.resendOf_own k).trans (ih _)
  exact all _ s

/-- The notice unit makes no head ready. -/
theorem State.resendWaiting_readyHead {s : State} (h : s.readyHead = none) : s.resendWaiting.readyHead = none := by
  obtain ⟨own, slots, e⟩ := s.resendWaiting_frame
  have grows := s.resendWaiting_own
  rw [e] at grows ⊢
  exact State.readyHead_none_of_own own slots s.noticeSeq h grows

theorem State.placeNotices_readyHead {s : State} (h : s.readyHead = none) : s.placeNotices.readyHead = none :=
  State.resendWaiting_readyHead (State.sendFirst_readyHead h)

/-- A resend leaves which slots are PENDING and which OUTSTANDING. -/
theorem State.resendOf_slot_kind (s : State) (j k : NoticeKind) :
    ((s.resendOf j).slot k).isPending = (s.slot k).isPending ∧
      ((s.resendOf j).slot k).isOutstanding = (s.slot k).isOutstanding := by
  by_cases h : k = j
  · subst h
    unfold State.resendOf
    split
    · rename_i n hn
      split
      · rw [State.resend, State.setSlot_slot, hn]
        exact ⟨rfl, rfl⟩
      · exact ⟨rfl, rfl⟩
    · exact ⟨rfl, rfl⟩
  · rw [State.resendOf_slot s h]
    exact ⟨rfl, rfl⟩

theorem State.resendWaiting_slot_kind (s : State) (k : NoticeKind) :
    (s.resendWaiting.slot k).isPending = (s.slot k).isPending ∧
      (s.resendWaiting.slot k).isOutstanding = (s.slot k).isOutstanding := by
  have all : ∀ (l : List NoticeKind) (s : State), ((l.foldl State.resendOf s).slot k).isPending = (s.slot k).isPending ∧
      ((l.foldl State.resendOf s).slot k).isOutstanding = (s.slot k).isOutstanding := by
    intro l
    induction l with
    | nil => exact fun s => ⟨rfl, rfl⟩
    | cons j l ih =>
      intro s
      obtain ⟨pending, outstanding⟩ := ih (s.resendOf j)
      obtain ⟨pending', outstanding'⟩ := s.resendOf_slot_kind j k
      exact ⟨pending.trans pending', outstanding.trans outstanding'⟩
  exact all _ s

/-- A first send is made where a slot is sendable and a place is free: it moves the notice sequence (R181). -/
theorem State.sendable_or_place {s : State} (h : s.sendFirst = s) : s.sendable = none ∨ s.ownPlace = false := by
  cases hs : s.sendable with
  | none => exact .inl rfl
  | some k =>
    refine .inr (Bool.eq_false_iff.2 fun place => ?_)
    obtain ⟨occ, d, pending⟩ := (Slot.isPending_iff _).1 ((s.sendable_eq_some k).1 hs).1
    have sent : s.sendFirst.noticeSeq = s.noticeSeq + 1 := by
      simp [State.sendFirst, hs, place, State.firstSend, pending]
    rw [h] at sent
    bv_omega

/-- After a first send and the resends no second first send follows (R180). -/
theorem State.placeNotices_sendFirst (s : State) : s.placeNotices.sendFirst = s.placeNotices := by
  obtain ⟨own, slots, e⟩ := s.sendFirst.resendWaiting_frame
  rcases State.sendable_or_place s.sendFirst_sendFirst with none | full
  · apply State.sendFirst_of_none
    rw [Option.eq_none_iff_forall_ne_some]
    intro k hk
    have params : s.placeNotices.params = s.sendFirst.params := by rw [State.placeNotices, e]
    rw [State.sendable_eq_some, params] at hk
    simp only [State.placeNotices, State.resendWaiting_slot_kind] at hk
    rw [(s.sendFirst.sendable_eq_some k).2 hk] at none
    cases none
  · have full' : s.placeNotices.ownPlace = false := by
      have grows := s.sendFirst.resendWaiting_own
      simp only [State.ownPlace, decide_eq_false_iff_not] at full ⊢
      rw [State.placeNotices]
      omega
    unfold State.sendFirst
    split
    · rw [if_neg (by simp [full'])]
    · rfl

/-- The waiting resends first, then the end of the event: the resends are placed twice over. -/
theorem State.settle_resend (s : State) : s.engine.sendFirst.resendWaiting.settle = s.settle.resendWaiting := by
  have again : s.settle.settle = s.settle.resendWaiting := by
    have ended : s.settle.readyHead = none := State.placeNotices_readyHead s.engine_readyHead
    have sent : s.settle.sendFirst = s.settle := s.engine.placeNotices_sendFirst
    rw [State.settle_of_none ended, State.placeNotices, sent]
  exact again

/-- What a command but the reset pin's can come to. -/
theorem exec_cases {c : Instr} {s t : State} (h : exec c s = .next t) (release : ∀ g m, c ≠ .powerOnReset g m)
    (assert : c ≠ .powerOnResetAssert) :
    t = s ∨ t = blockEffect c s ∨ t = (blockEffect c s).settle ∨ t = s.settle.resendWaiting := by
  have event : ∀ f : State → State, s.event f = .next t → (f s).settle = (blockEffect c s).settle →
      t = s ∨ t = blockEffect c s ∨ t = (blockEffect c s).settle ∨ t = s.settle.resendWaiting := by
    intro f h same
    rcases State.event_next h with ⟨-, h⟩ | ⟨-, h⟩
    · exact .inl h
    · exact .inr (.inr (.inl (h.trans same)))
  have running : ∀ f : State → State, s.running f = .next t → f s = blockEffect c s →
      t = s ∨ t = blockEffect c s ∨ t = (blockEffect c s).settle ∨ t = s.settle.resendWaiting := by
    intro f h same
    rcases State.running_next h with ⟨-, h⟩ | ⟨-, h⟩
    · exact .inl h
    · exact .inr (.inl (h.trans same))
  have served := s.settle_serve
  unfold exec at h
  cases c with
  | powerOnReset g m => exact absurd rfl (release g m)
  | powerOnResetAssert => exact absurd rfl assert
  | loopFlag tail times => exact event _ h rfl
  | loopOctet v rest times => exact event _ h rfl
  | loopAbort => exact event _ h rfl
  | lineIdle => exact event _ h rfl
  | lineSilenceDeadline => exact event _ h rfl
  | arbiterChoice => exact event _ h rfl
  | underrun times => exact event _ h rfl
  | forwardComplete => exact running _ h rfl
  | insertionEnd => exact running _ h rfl
  | abortComplete => exact running _ h rfl
  | returnTimeoutExpiry => exact running _ h rfl
  | portBreak bits => exact event _ h rfl
  | portBreakEnd => exact running _ h rfl
  | stationFrameGood => exact event _ h rfl
  | stationFrameDiscard how => exact event _ h rfl
  | portTxChoice => exact running _ h rfl
  | portReportSent => exact event _ h rfl
  | portTxAbortComplete => exact running _ h rfl
  | badCommand => exact event _ h (served none)
  | status => exact event _ h (served (some .status))
  | paramRead => exact event _ h (served (some .paramRead))
  | paramWrite => exact event _ h (served (some .paramWrite))
  | listRead => exact event _ h (served (some .listRead))
  | listWrite => exact event _ h (served (some .listWrite))
  | tableRead => exact event _ h (served (some .tableRead))
  | countersRead => exact event _ h (served (some .countersRead))
  | sessionOpen => exact event _ h (served (some .sessionOpen))
  | entryInsert => exact event _ h (served (some .entryInsert))
  | entryReplace => exact event _ h (served (some .entryReplace))
  | entryRemove => exact event _ h (served (some .entryRemove))
  | sessionCommit => exact event _ h (served (some .sessionCommit))
  | sessionDiscard => exact event _ h (served (some .sessionDiscard))
  | noticeAck => exact event _ h (served (some .noticeAck))
  | restart => exact event _ h (served (some .restart))
  | sessionTimeoutExpiry => exact event _ h rfl
  | noticeFirstSend =>
    exact event _ h ((State.settle_sendFirst s.engine_readyHead).trans s.settle_engine)
  | noticeRetryDeadline k => exact event _ h rfl
  | noticeResend =>
    rcases State.event_next h with ⟨-, h⟩ | ⟨-, h⟩
    · exact .inl h
    · exact .inr (.inr (.inr (h.trans s.settle_resend)))
  | stationFlag tail => exact running _ h rfl
  | stationOctet v rest => exact event _ h rfl
  | stationAbort idle => exact running _ h rfl

/-! ### What a block's effect keeps -/

/-- The state with the one change that a command is there to make in what `State.Keeps` reads. -/
inductive State.Prepares (s : State) : Instr → State → Prop
  | same (c : Instr) : s.Prepares c s
  /-- A flag may complete the request that collects. -/
  | completed (tail : List Bool) (times : Nat) : s.Prepares (.loopFlag tail times) s.completed
  /-- The eighth octet counts a hit and makes at most an entry in transit (R29, R47). -/
  | header {v : Byte} {rest : List Bool} {times : Nat} {f : RxFrame} {active : List TableEntry}
      {transit : List TransitEntry} (frame : s.rx.state = .frame f) (last : f.count = 7)
      (rules : active.map (fun e => e.rule) = s.active.map (fun e => e.rule))
      (hits : (∀ e ∈ s.active, e.hits ≤ Config.maxHits) → ∀ e ∈ active, e.hits ≤ Config.maxHits)
      (made : ∀ e ∈ transit, (∃ e0 ∈ s.transit, e0.header = e.header ∧ e0.reservation = e.reservation) ∨
        s.Forwards (Header.ofOctets 0 (f.head ++ [v])) e) :
      s.Prepares (.loopOctet v rest times) { s with active := active, transit := transit }
  /-- The arbiter's choice may move the return-log sequence (R84). -/
  | started (n : Byte) : s.Prepares .arbiterChoice { s with logSeq := n }
  /-- A GOOD station frame may become a request (R120). -/
  | submitted {f : RxFrame} {info : List Byte} (tag : Tag) (frame : s.srx.state = .frame f info) :
      s.Prepares .stationFrameGood { s with requests := s.requests ++ [⟨.station tag, info, true⟩] }

/-- The eighth octet, whose header is judged. -/
theorem State.loopOctet_prepares {s : State} {f : RxFrame} (hf : s.rx.state = .frame f) (last : f.count = 7) (v : Byte)
    (rest : List Bool) (times : Nat) :
    ∃ s', s.Prepares (.loopOctet v rest times) s' ∧ s'.Keeps ((s.octetTimes times).loopOctet v rest) := by
  have from_s : TransitFrom (s.octetTimes times).transit s.transit := (s.keeps_octetTimes times).transit
  rw [State.loopOctet_of_last (by rw [s.octetTimes_rx, hf]) v rest last]
  obtain ⟨sent, timed⟩ := s.octetTimes_frame times
  rw [timed] at from_s ⊢
  generalize hu : ({ ({ s with transit := sent } : State) with rx := ⟨.frame (f.push 0 v), 0, rest⟩ } : State) = u
  generalize hh : Header.ofOctets 0 (f.head ++ [v]) = h
  obtain ⟨active, transit, hit, made, keeps⟩ := u.keeps_judgeHeader h (u.find h)
  have same_active : u.active = s.active := by rw [← hu]
  have forwards : (u.find h).verdict.forwards = true →
      h.tally.hops < s.params.hopLimit ∧ (s.mode = .service → some h.sa ∉ s.identity.toList) := by
    rw [← hu]
    exact State.find_forwards
  refine ⟨{ s with active := active, transit := transit }, .header hf last ?_ ?_ fun e he => ?_, ?_⟩
  · rcases hit with rfl | rfl
    · rw [same_active]
    · obtain ⟨hit, hit_eq, rules⟩ := u.hitMatched_frame (u.find h)
      rw [hit_eq, ← same_active]
      exact rules
  · intro h
    rcases hit with rfl | rfl
    · rwa [same_active]
    · exact u.hitMatched_hits _ (by rwa [same_active])
  · rcases made e he with old | ⟨fwd, marks, new⟩
    · rw [← hu] at old
      exact .inl (from_s e old)
    · obtain ⟨near, foreign⟩ := forwards fwd
      rw [hh]
      exact .inr ⟨near, foreign, marks, new⟩
  · refine State.Keeps.trans ?_ keeps
    rw [← hu]
    exact .of_keptPart rfl

theorem State.loopOctet_keeps (s : State) (v : Byte) (rest : List Bool) (times : Nat) :
    ∃ s', s.Prepares (.loopOctet v rest times) s' ∧ s'.Keeps ((s.octetTimes times).loopOctet v rest) := by
  have timed := s.keeps_octetTimes times
  have rx : (s.octetTimes times).rx = s.rx := s.octetTimes_rx times
  cases hs : s.rx.state with
  | hunt =>
    rw [State.loopOctet_of_hunt (by rw [rx, hs])]
    exact ⟨s, .same _, timed.trans (State.keeps_rx _ _ _)⟩
  | fill =>
    rw [State.loopOctet_of_fill (by rw [rx, hs])]
    exact ⟨s, .same _, timed.trans (State.keeps_rx _ _ _)⟩
  | frame f =>
    have hf : (s.octetTimes times).rx.state = .frame f := by rw [rx, hs]
    rcases Nat.lt_trichotomy f.count 7 with early | last | after
    · rw [State.loopOctet_of_header hf v rest early]
      exact ⟨s, .same _, timed.trans (State.keeps_rx _ _ _)⟩
    · exact State.loopOctet_prepares hs last v rest times
    · rcases Nat.lt_or_ge f.count (8 + f.length) with info | beyond
      · rw [State.loopOctet_of_info hf v rest after info]
        exact ⟨s, .same _, (timed.trans (State.keeps_rx _ _ _)).trans (State.keeps_infoOctet _ v)⟩
      · by_cases excess : f.count = 8 + f.length + 2
        · rw [State.loopOctet_of_excess hf v rest excess]
          exact ⟨s, .same _, (timed.trans (State.keeps_frameEnd (by simp) _)).trans (State.keeps_rx _ _ _)⟩
        · rw [State.loopOctet_of_check hf v rest beyond excess]
          exact ⟨s, .same _, timed.trans (State.keeps_rx _ _ _)⟩

theorem State.stationGood_keeps (s : State) :
    ∃ s', s.Prepares .stationFrameGood s' ∧ s'.Keeps s.stationGood := by
  unfold State.stationGood
  split
  · rename_i f info hs
    split
    · refine ⟨_, .submitted (submissionOf f info).tag hs, State.Keeps.trans ?_ (State.keeps_accept _ _)⟩
      exact .of_keptPart rfl
    · exact ⟨s, .same _, .refl s⟩
  · exact ⟨s, .same _, .refl s⟩

/-- A command's effect keeps what the state has, but for the one change the command is there to make. -/
theorem blockEffect_keeps (c : Instr) (s : State) : ∃ s', s.Prepares c s' ∧ s'.Keeps (blockEffect c s) := by
  have quiet : ∀ {t}, s.Keeps t → ∃ s', s.Prepares c s' ∧ s'.Keeps t := fun k => ⟨s, .same c, k⟩
  cases c with
  | loopFlag tail times =>
    refine ⟨s.completed, .completed tail times, State.Keeps.trans ?_ (State.completed_keeps_loopFlag _ tail)⟩
    obtain ⟨_, timed⟩ := s.octetTimes_frame times
    have from_s := (s.keeps_octetTimes times).transit
    rw [timed] at from_s ⊢
    exact { State.Keeps.refl s.completed with transit := from_s }
  | loopOctet v rest times => exact s.loopOctet_keeps v rest times
  | arbiterChoice =>
    obtain ⟨n, k⟩ := s.keeps_arbitrate
    exact ⟨_, .started n, k⟩
  | stationFrameGood => exact s.stationGood_keeps
  | loopAbort => exact quiet (s.keeps_loopOnes 7)
  | lineIdle => exact quiet (s.keeps_loopOnes 15)
  | lineSilenceDeadline => exact quiet s.keeps_silence
  | underrun times => exact quiet ((s.keeps_octetTimes times).trans (State.keeps_underrun _))
  | forwardComplete => exact quiet s.keeps_completeForward
  | insertionEnd => exact quiet s.keeps_endInsertion
  | abortComplete => exact quiet s.keeps_completeAbort
  | returnTimeoutExpiry => exact quiet s.keeps_expireLog
  | portBreak bits => exact quiet (s.keeps_startBreak bits)
  | portBreakEnd => exact quiet s.keeps_endBreak
  | stationFrameDiscard how => exact quiet (s.keeps_stationDiscard how)
  | portTxChoice => exact quiet s.keeps_portChoice
  | portReportSent => exact quiet s.keeps_reportSent
  | portTxAbortComplete => exact quiet s.keeps_portAbortSent
  | sessionTimeoutExpiry => exact quiet s.keeps_expireSession
  | noticeRetryDeadline k => exact quiet (s.keeps_retryDeadline k)
  | stationFlag tail => exact quiet s.keeps_stationFlag
  | stationOctet v rest => exact quiet (s.keeps_stationOctet v rest)
  | stationAbort idle => exact quiet (s.keeps_stationAbort idle)
  | _ => exact quiet (.refl s)

end Sys2Proof.Machine
end

section
/-! SUPPORT. The address table and its staged copy (chapter 9), and what carrying out a request may change: one
reconfiguration by command, after which the relation `State.Keeps` holds. -/

namespace Sys2Proof.Machine

/-! ### The staged table (R26, R160 to R167) -/

theorem stageFrom_keys (n : Nat) (active : List TableEntry) :
    (stageFrom n active).map (fun e => e.rule.key) = active.map (fun e => e.rule.key) := by
  induction active generalizing n with
  | nil => rfl
  | cons e es ih => simp [stageFrom, ih]

theorem stageFrom_origins (n : Nat) (active : List TableEntry) :
    (stageFrom n active).filterMap (fun e => e.origin) = List.range' n active.length := by
  induction active generalizing n with
  | nil => rfl
  | cons e es ih => simp [stageFrom, ih, List.range'_succ]

/-- A session opens with a sound copy (R160). -/
theorem stagedSound_stageFrom {active : List TableEntry} (h : KeysSound (active.map (fun e => e.rule.key))) :
    StagedSound active (stageFrom 0 active) := by
  refine ⟨by rwa [stageFrom_keys], ?_, ?_⟩
  · rw [stageFrom_origins]
    exact List.nodup_range'
  · intro o ho
    rw [stageFrom_origins, List.mem_range'_1] at ho
    omega

theorem KeysSound.of_sublist {keys few : List Key} (h : KeysSound keys) (sub : few.Sublist keys) : KeysSound few :=
  ⟨sub.length_le.trans h.1, h.2.1.sublist sub, fun k hk => h.2.2 k (sub.subset hk)⟩

theorem KeysSound.cons {keys : List Key} {k : Key} (h : KeysSound keys) (room : keys.length < Config.tableEntries)
    (new : k ∉ keys) (range : k.low.toNat ≤ k.high.toNat) : KeysSound (k :: keys) :=
  ⟨room, List.nodup_cons.2 ⟨new, h.2.1⟩, List.forall_mem_cons.2 ⟨range, h.2.2⟩⟩

theorem KeysSound.perm {keys other : List Key} (h : KeysSound keys) (p : other.Perm keys) : KeysSound other :=
  ⟨p.length_eq.le.trans h.1, p.nodup_iff.2 h.2.1, fun k hk => h.2.2 k (p.mem_iff.1 hk)⟩

section
variable {active : List TableEntry} {staged other : List StagedEntry} (h : StagedSound active staged)
include h

/-- An entry removed leaves a sound table (R165). -/
theorem StagedSound.of_sublist (sub : other.Sublist staged) : StagedSound active other := by
  obtain ⟨keys, origins, named⟩ := h
  exact ⟨keys.of_sublist (sub.map _), origins.sublist (sub.filterMap _), fun o ho => named o ((sub.filterMap _).subset ho)⟩

theorem StagedSound.perm (p : other.Perm staged) : StagedSound active other := by
  obtain ⟨keys, origins, named⟩ := h
  exact ⟨keys.perm (p.map _), (p.filterMap _).nodup_iff.2 origins, fun o ho => named o ((p.filterMap _).mem_iff.1 ho)⟩

/-- A new entry of another key, without an origin (R163, R164). -/
theorem StagedSound.cons {r : Rule} (room : staged.length < Config.tableEntries)
    (new : ∀ e ∈ staged, e.rule.key ≠ r.key) (range : r.key.low.toNat ≤ r.key.high.toNat) :
    StagedSound active (⟨r, none⟩ :: staged) := by
  obtain ⟨keys, origins, named⟩ := h
  refine ⟨keys.cons (by simpa using room) ?_ range, origins, named⟩
  rintro hk
  obtain ⟨e, he, same⟩ := List.mem_map.1 hk
  exact new e he same

end

theorem readRule_range {form group low high action policy label : Byte} {r : Rule}
    (h : readRule form group low high action policy label = some r) : r.key.low.toNat ≤ r.key.high.toNat := by
  unfold readRule at h
  split at h
  · split at h
    · obtain rfl := Option.some.inj h
      assumption
    · cases h
  · cases h

/-- The installed table has the staged keys (R166). -/
theorem commitTable_keys (active : List TableEntry) (staged : List StagedEntry) :
    (commitTable active staged).map (fun e => e.rule.key) = staged.map (fun e => e.rule.key) := by
  simp [commitTable]

theorem commitTable_hits {active : List TableEntry} (h : ∀ e ∈ active, e.hits ≤ Config.maxHits)
    (staged : List StagedEntry) : ∀ e ∈ commitTable active staged, e.hits ≤ Config.maxHits := by
  intro e he
  obtain ⟨x, -, rfl⟩ := List.mem_map.1 he
  show hitsOfOrigin active x.origin ≤ Config.maxHits
  cases x.origin with
  | none => exact Nat.zero_le _
  | some o =>
    show ((active[o]?).map (fun e => e.hits)).getD 0 ≤ Config.maxHits
    cases ha : active[o]? with
    | none => exact Nat.zero_le _
    | some e => exact h e (List.mem_of_getElem? ha)

/-! ### What a request may change -/

/-- The state with the one change a command's run is there to make in what `State.Keeps` reads. -/
inductive State.Reconfigures (s : State) : Option Command → State → Prop
  | nothing (c : Option Command) : s.Reconfigures c s
  | params {p : Param} {v : Nat} {ps : Params} (h : s.params.write p v = some ps) :
      s.Reconfigures (some .paramWrite) { s with params := ps }
  | identity (l : Vector (Option Address) 4) : s.Reconfigures (some .listWrite) { s with identity := l }
  | managers (l : Vector (Option Address) 4) : s.Reconfigures (some .listWrite) { s with managers := l }
  /-- A session opens, its deadline is refreshed, or its staged table is edited. -/
  | staged (c : Option Command) {x : Session} (sound : TablesSound s → StagedSound s.active x.staged) :
      s.Reconfigures c { s with session := some x }
  | committed {x : Session} (h : s.session = some x) :
      s.Reconfigures (some .sessionCommit)
        { s with active := commitTable s.active x.staged, epoch := s.epoch + 1, session := none }

/-- `t` is a run of this command from `s`: the one change, and nothing more that the relation reads. -/
def State.Runs (s : State) (c : Option Command) (t : State) : Prop := ∃ s', s.Reconfigures c s' ∧ s'.Keeps t

theorem State.Keeps.runs {s t : State} (k : s.Keeps t) (c : Option Command) : s.Runs c t := ⟨s, .nothing c, k⟩

theorem State.Reconfigures.runs {s t : State} {c : Option Command} (h : s.Reconfigures c t) : s.Runs c t :=
  ⟨t, h, .refl t⟩

theorem State.Runs.keeps {s t u : State} {c : Option Command} (h : s.Runs c t) (k : t.Keeps u) : s.Runs c u := by
  obtain ⟨s', change, k'⟩ := h
  exact ⟨s', change, k'.trans k⟩

theorem State.runs_refl (s : State) (c : Option Command) : s.Runs c s := (State.Keeps.refl s).runs c

section
variable {s : State} {c : Option Command} {who : Requester}

theorem State.ifAuthorized_runs {run : State × Answer} (h : s.Runs c run.1) :
    s.Runs c (s.ifAuthorized who run).1 := by
  unfold State.ifAuthorized
  split
  · exact h
  · exact s.runs_refl c

/-- The present session's table is sound, whatever else the session holds. -/
theorem tablesSound_staged {x : Session} (hx : s.session = some x) (h : TablesSound s) : StagedSound s.active x.staged :=
  h.2 x (by simp [hx])

/-- The owner's command refreshes the deadline, whatever becomes of it (R161). -/
theorem State.asOwner_runs {run : Session → State → State × Answer}
    (h : ∀ x, s.session = some x →
      s.Runs c (run { x with lastCommand := s.timer } { s with session := some { x with lastCommand := s.timer } }).1) :
    s.Runs c (s.asOwner who run).1 := by
  unfold State.asOwner
  apply State.ifAuthorized_runs
  split
  · exact s.runs_refl c
  · rename_i x hx
    split
    · exact h x hx
    · exact s.runs_refl c

/-- A refused edit leaves the refreshed deadline. -/
theorem State.runs_refreshed {x : Session} (hx : s.session = some x) (c : Option Command) (now : Word32) :
    s.Runs c { s with session := some { x with lastCommand := now } } :=
  (State.Reconfigures.staged c (x := { x with lastCommand := now })
    (fun sound => (tablesSound_staged hx sound : StagedSound s.active x.staged))).runs

end

theorem not_duplicates {staged : List StagedEntry} {skip : Option Nat} {k : Key} (h : ¬ duplicates staged skip k = true)
    {i : Nat} {e : StagedEntry} (hi : some i ≠ skip) (he : staged[i]? = some e) : e.rule.key ≠ k :=
  fun same => h ((duplicates_iff _ _ _).2 ⟨i, e, hi, he, same⟩)

section
variable {s : State} {x : Session} (hx : s.session = some x) (c : Option Command) (now : Word32) (position : Nat)
include hx

/-- A new entry leaves a sound table (R163): the checks before it see to its key, its range and its room. -/
theorem State.insertEntry_runs {rule : Option Rule} (range : ∀ r, rule = some r → r.key.low.toNat ≤ r.key.high.toNat) :
    s.Runs c (State.insertEntry { s with session := some { x with lastCommand := now } }
      { x with lastCommand := now } position rule).1 := by
  unfold State.insertEntry
  split
  · exact State.runs_refreshed hx c now
  · rename_i r
    split
    · exact State.runs_refreshed hx c now
    split
    · exact State.runs_refreshed hx c now
    split
    · exact State.runs_refreshed hx c now
    · rename_i room inside new
      refine (State.Reconfigures.staged c fun sound => ?_).runs
      refine StagedSound.perm (StagedSound.cons (tablesSound_staged hx sound) (Nat.not_le.1 room) (fun e he => ?_)
        (range r rfl)) (List.perm_insertIdx _ _ (Nat.not_lt.1 inside))
      obtain ⟨i, hi⟩ := List.mem_iff_getElem?.1 he
      exact not_duplicates new (by simp) hi

/-- An entry written in another's place leaves a sound table (R164). -/
theorem State.replaceEntry_runs {rule : Option Rule} (range : ∀ r, rule = some r → r.key.low.toNat ≤ r.key.high.toNat) :
    s.Runs c (State.replaceEntry { s with session := some { x with lastCommand := now } }
      { x with lastCommand := now } position rule).1 := by
  unfold State.replaceEntry
  split
  · exact State.runs_refreshed hx c now
  · rename_i r
    split
    · exact State.runs_refreshed hx c now
    split
    · exact State.runs_refreshed hx c now
    · rename_i inside new
      have inside : position < x.staged.length := Nat.not_le.1 inside
      refine (State.Reconfigures.staged c fun sound => ?_).runs
      have sound := tablesSound_staged hx sound
      refine StagedSound.perm (StagedSound.cons (sound.of_sublist (List.eraseIdx_sublist _ position)) ?_ (fun e he => ?_)
        (range r rfl)) (List.set_perm_cons_eraseIdx inside _)
      · have most := sound.1.1
        rw [List.length_map] at most
        rw [List.length_eraseIdx_of_lt inside]
        omega
      · obtain ⟨i, hi, he⟩ := List.mem_eraseIdx_iff_getElem?.1 he
        exact not_duplicates new (by simpa using hi) he

theorem State.removeEntry_runs :
    s.Runs c (State.removeEntry { s with session := some { x with lastCommand := now } }
      { x with lastCommand := now } position).1 := by
  unfold State.removeEntry
  split
  · exact State.runs_refreshed hx c now
  · exact (State.Reconfigures.staged c fun sound =>
      (tablesSound_staged hx sound).of_sublist (List.eraseIdx_sublist _ position)).runs

end

/-! ### The commands -/

theorem State.keeps_session_none (s : State) : s.Keeps { s with session := none } :=
  { State.Keeps.refl s with session := .inr rfl }

theorem State.keeps_counters (s : State) (x : Vector Word32 16) : s.Keeps { s with counters := x } := .of_keptPart rfl

theorem State.keeps_readCounters (s : State) (first count : Nat) (clear : Bool) :
    s.Keeps (s.readCounters first count clear).1 := by
  unfold State.readCounters
  split
  · cases clear with
    | false => exact .refl s
    | true => exact s.keeps_counters _
  · exact .refl s

/-- An acknowledged slot keeps its counts in range (R184). -/
theorem State.keeps_ackNotice (s : State) (k : NoticeKind) (seq : Byte) : s.Keeps (s.ackNotice k seq).1 := by
  unfold State.ackNotice
  split
  · rename_i n hn
    split
    · refine s.keeps_setSlot k fun _ range => ?_
      rw [hn] at range
      simp only [Slot.inRange, decide_eq_true_eq] at range
      unfold OutNotice.acked
      split
      · simp only [Slot.inRange, decide_eq_true_eq]
        omega
      · rfl
    · exact .refl s
  · exact .refl s

theorem State.keeps_afterWrite (s : State) (p : Param) : s.Keeps (s.afterWrite p) := by
  unfold State.afterWrite
  split
  · exact s.keeps_expireLog
  · exact s.keeps_expireSession
  · exact s.keeps_silence
  · exact .refl s

/-- RESTART keeps its own request alone (R153, R154). -/
theorem State.keeps_restart {s : State} {r : Request} (hr : r ∈ s.requests) : s.Keeps (s.restart r) := by
  have emptied : s.Keeps { s.restartLoop.restartQueues.flushLog with
      flushed := saturate (s.flushed + (s.urgent.length + s.normal.length)) } :=
    { State.Keeps.refl s with
      transit := .of_subset (List.nil_subset _)
      fairness := Nat.zero_le _
      flushed := le_max_of_le_right (saturate_le _) }
  have port : s.Keeps (s.restartLoop.restartQueues.flushLog.restartPort (s.urgent.length + s.normal.length)) :=
    emptied.trans (State.keeps_causeStatus _)
  generalize hu : s.restartLoop.restartQueues.flushLog.restartPort (s.urgent.length + s.normal.length) = u at port
  have alone : s.Keeps { u with requests := [r], session := none, slots := Vector.replicate 8 .idle } :=
    { port with
      session := .inr rfl
      requests := fun q hq _ => List.mem_singleton.1 hq ▸ hr
      slots := fun _ k _ => by fin_cases k <;> rfl }
  have restarted : s.restart r =
      ({ u with requests := [r], session := none, slots := Vector.replicate 8 .idle } : State).raise .started
        r.source.detail := by
    rw [← hu]
    rfl
  rw [restarted]
  exact alone.trans (State.keeps_raise _ _ _)

theorem State.runOf_runs {s : State} {r : Request} (hr : r ∈ s.requests) (c : Option Command) :
    s.Runs c (State.runOf c r s).1 := by
  have quiet := s.runs_refl c
  cases c with
  | none => exact quiet
  | some c =>
    cases c with
    | status => exact quiet
    | paramRead =>
      show s.Runs _ (State.runParamRead r s).1
      unfold State.runParamRead
      repeat' split
      all_goals exact quiet
    | paramWrite =>
      show s.Runs _ (State.runParamWrite r s).1
      unfold State.runParamWrite
      split
      · apply State.ifAuthorized_runs
        unfold State.writeParam
        split
        · exact quiet
        · split
          · exact quiet
          · rename_i ps written
            exact (State.Reconfigures.params written).runs.keeps (State.keeps_afterWrite _ _)
      · exact quiet
    | listRead =>
      show s.Runs _ (State.runListRead r s).1
      unfold State.runListRead
      repeat' split
      all_goals exact quiet
    | listWrite =>
      show s.Runs _ (State.runListWrite r s).1
      unfold State.runListWrite
      split
      · apply State.ifAuthorized_runs
        split
        · unfold State.writeList
          split
          · repeat' split
            · exact quiet
            · exact quiet
            · exact quiet
            · exact (State.Reconfigures.identity _).runs
          · split
            · exact quiet
            · exact (State.Reconfigures.managers _).runs
        · exact quiet
      · exact quiet
    | tableRead =>
      show s.Runs _ (State.runTableRead r s).1
      unfold State.runTableRead
      repeat' split
      all_goals exact quiet
    | countersRead =>
      show s.Runs _ (State.runCountersRead r s).1
      unfold State.runCountersRead
      split
      · split
        · exact State.ifAuthorized_runs ((s.keeps_readCounters _ _ _).runs _)
        · exact (s.keeps_readCounters _ _ _).runs _
      · exact quiet
    | sessionOpen =>
      show s.Runs _ (State.runSessionOpen r s).1
      unfold State.runSessionOpen
      apply State.ifAuthorized_runs
      split
      · exact (State.Reconfigures.staged _ fun sound => stagedSound_stageFrom sound.1).runs
      · rename_i x hx
        split
        · exact State.runs_refreshed hx _ _
        · exact quiet
    | entryInsert =>
      show s.Runs _ (State.runEntryInsert r s).1
      unfold State.runEntryInsert
      split
      · exact State.asOwner_runs fun x hx => State.insertEntry_runs hx _ _ _ fun _ => readRule_range
      · exact quiet
    | entryReplace =>
      show s.Runs _ (State.runEntryReplace r s).1
      unfold State.runEntryReplace
      split
      · exact State.asOwner_runs fun x hx => State.replaceEntry_runs hx _ _ _ fun _ => readRule_range
      · exact quiet
    | entryRemove =>
      show s.Runs _ (State.runEntryRemove r s).1
      unfold State.runEntryRemove
      split
      · exact State.asOwner_runs fun x hx => State.removeEntry_runs hx _ _ _
      · exact quiet
    | sessionCommit => exact State.asOwner_runs fun x hx => (State.Reconfigures.committed hx).runs
    | sessionDiscard => exact State.asOwner_runs fun _ _ => s.keeps_session_none.runs _
    | noticeAck =>
      show s.Runs _ (State.runNoticeAck r s).1
      unfold State.runNoticeAck
      split
      · apply State.ifAuthorized_runs
        split
        · exact (s.keeps_ackNotice _ _).runs _
        · exact quiet
      · exact quiet
    | restart =>
      show s.Runs _ (s.ifAuthorized r.source (s.restart r, .ok [])).1
      exact State.ifAuthorized_runs ((State.keeps_restart hr).runs _)

/-! ### Requests carried out, and what every event keeps -/

theorem State.keeps_reply (s : State) (r : Request) (a : Answer) : s.Keeps (s.reply r a) := by
  obtain ⟨_, _, h⟩ := s.reply_frame r a
  rw [h]
  exact { State.Keeps.refl s with requests := fun q hq _ => List.mem_of_mem_tail hq }

/-- A ready head carried out is a run of its command. -/
theorem State.carryOut_runs {s : State} {r : Request} (ready : s.readyHead = some r) :
    r ∈ s.requests ∧ r.complete = true ∧ s.Runs r.command (s.carryOut r) := by
  obtain ⟨rest, hs, complete, -⟩ := State.readyHead_some ready
  have hr : r ∈ s.requests := hs ▸ List.mem_cons_self
  exact ⟨hr, complete, (State.runOf_runs hr r.command).keeps (State.keeps_reply _ _ _)⟩

/-- The chain, one carried-out request after another (R136). -/
theorem State.engine_induction {P : State → Prop} {s : State} (h : P s)
    (step : ∀ t r, t.readyHead = some r → P t → P (t.carryOut r)) : P s.engine := by
  have upTo : ∀ (n : Nat) (s : State), P s → P (State.carryOutUpTo n s) := by
    intro n
    induction n with
    | zero => exact fun s h => h
    | succ n ih =>
      intro s h
      unfold State.carryOutUpTo
      split
      · rename_i r ready
        exact ih _ (step s r ready h)
      · exact h
  exact upTo _ _ h

/-- What a step keeps: a predicate that the relation keeps, that no preparation and no reconfiguration loses, that does
not read the timer, the queue of commands and the notice sequence, and that holds at power-on. -/
structure StepInvariant (P : State → Prop) : Prop where
  keeps : ∀ {s t : State}, s.Keeps t → P s → P t
  prepares : ∀ {c : Instr} {s s' : State}, s.Prepares c s' → P s → P s'
  reconfigures : ∀ {c : Option Command} {s s' : State}, s.Reconfigures c s' → P s → P s'
  sequences : ∀ (s : State) (timer : Word32) (pending : List Instr) (noticeSeq : Byte), P s →
    P { s with timer := timer, pending := pending, noticeSeq := noticeSeq }
  powerOn : ∀ (g m : Byte) (pending : List Instr), P { State.powerOn g m with pending := pending }
  asserted : ∀ s : State, P s.asserted

section
variable {P : State → Prop} (inv : StepInvariant P)
include inv

theorem StepInvariant.settle {s : State} (h : P s) : P s.settle := by
  have engine : P s.engine := by
    refine State.engine_induction h fun t r ready h => ?_
    obtain ⟨-, -, s', change, k⟩ := State.carryOut_runs ready
    exact inv.keeps k (inv.reconfigures change h)
  obtain ⟨n, -, k⟩ := s.engine.keeps_placeNotices
  exact inv.keeps k (inv.sequences s.engine s.engine.timer s.engine.pending n engine)

theorem StepInvariant.of_exec {c : Instr} {s t : State} (h : P s) (hn : exec c s = .next t) : P t := by
  have command : (∀ g m, c ≠ .powerOnReset g m) → c ≠ .powerOnResetAssert → P t := by
    intro release assert
    obtain ⟨s', prepared, k⟩ := blockEffect_keeps c s
    have block : P (blockEffect c s) := inv.keeps k (inv.prepares prepared h)
    rcases exec_cases hn release assert with same | same | same | same <;> rw [same]
    · exact h
    · exact block
    · exact inv.settle block
    · exact inv.keeps (State.keeps_resendWaiting _) (inv.settle h)
  cases c with
  | powerOnReset g m =>
    obtain rfl := Host.Outcome.next.inj hn
    exact inv.powerOn g m s.pending
  | powerOnResetAssert =>
    obtain rfl := Host.Outcome.next.inj hn
    exact inv.asserted s
  | _ => exact command (by simp) (by simp)

theorem StepInvariant.of_step {s t : State} (h : P s) (hn : step s = .next t) : P t := by
  unfold step at hn
  split at hn
  · obtain rfl := Host.Outcome.next.inj hn
    unfold State.tick
    split
    · exact h
    · exact inv.sequences s (s.timer + 1) s.pending s.noticeSeq h
  · rename_i c rest _
    exact inv.of_exec (inv.sequences s s.timer rest s.noticeSeq h) hn

end

/-! ### Sound tables (R24, R26, R160, R166, R167) -/

theorem KeysSound.of_rules {active other : List TableEntry}
    (rules : other.map (fun e => e.rule) = active.map (fun e => e.rule)) :
    other.map (fun e => e.rule.key) = active.map (fun e => e.rule.key) := by
  have keys := congrArg (List.map (fun r : Rule => r.key)) rules
  rwa [List.map_map, List.map_map] at keys

/-- Tables stay sound while the active table keeps its rules and the session is the same or closed. -/
theorem TablesSound.congr {s t : State} (h : TablesSound s)
    (rules : t.active.map (fun e => e.rule) = s.active.map (fun e => e.rule))
    (session : t.session = s.session ∨ t.session = none) : TablesSound t := by
  obtain ⟨keys, staged⟩ := h
  refine ⟨by rwa [KeysSound.of_rules rules], fun x hx => ?_⟩
  have length : t.active.length = s.active.length := by simpa using congrArg List.length rules
  rcases session with same | none
  · have sound := staged x (same ▸ hx)
    unfold StagedSound at sound ⊢
    rwa [length]
  · simp [none] at hx

theorem tablesSound_of_empty {s : State} (active : s.active = []) (session : s.session = none) : TablesSound s := by
  simp [TablesSound, KeysSound, active, session]

theorem tablesSound_invariant : StepInvariant TablesSound where
  keeps := fun k h => h.congr (by rw [k.active]) k.session
  prepares := by
    intro c s s' prepared h
    cases prepared with
    | header _ _ rules _ _ => exact h.congr rules (.inl rfl)
    | _ => exact h.congr rfl (.inl rfl)
  reconfigures := by
    intro c s s' change h
    cases change with
    | staged c sound => exact ⟨h.1, by simpa using sound h⟩
    | committed hx =>
      have sound := tablesSound_staged hx h
      exact ⟨by rw [commitTable_keys]; exact sound.1, by simp⟩
    | _ => exact h.congr rfl (.inl rfl)
  sequences := fun _ _ _ _ h => h
  powerOn := fun _ _ _ => tablesSound_of_empty rfl rfl
  asserted := fun _ => tablesSound_of_empty rfl rfl

/-- Settles O54: soundness is a step invariant. -/
theorem stepKeepsTablesSound : Obligations.StepKeepsTablesSound := fun _ _ => tablesSound_invariant.of_step

end Sys2Proof.Machine
end

section
/-! Two laws over every command: each figure stays in its range, and a frame in transit was received with hops one fewer,
below HOP_LIMIT, from no identity (R41). -/

namespace Sys2Proof.Machine

/-! ### Figures (R24, R41, R73, R121, R125, R142, R177) -/

@[simp] theorem Header.rewrite_hops (h : Header) (marks : Option Mark) :
    (h.rewrite marks).tally.hops = h.tally.hops + 1 := by
  rcases marks with - | - | - <;> rfl

theorem inRange_iff (low high v : Nat) : inRange low high v = true ↔ low ≤ v ∧ v ≤ high := decide_eq_true_iff

theorem Params.eq_of_inRange {low high v : Nat} {new written : Params}
    (h : (if inRange low high v then some written else none) = some new) : (low ≤ v ∧ v ≤ high) ∧ new = written := by
  split at h
  · rename_i range
    exact ⟨(inRange_iff low high v).1 range, (Option.some.inj h).symm⟩
  · cases h

/-- A written value is in its parameter's range (R142). -/
theorem Params.write_inRange {ps new : Params} {p : Param} {v : Nat} (h : ps.write p v = some new)
    (range : ParamsInRange ps) : ParamsInRange new := by
  obtain ⟨hop, cut, returns, sessions, retry, retries, silence, fair⟩ := range
  unfold Params.write at h
  cases p with
  | defaultAction =>
    dsimp only at h
    split at h
    · obtain rfl := Option.some.inj h
      exact ⟨hop, cut, returns, sessions, retry, retries, silence, fair⟩
    split at h
    · obtain rfl := Option.some.inj h
      exact ⟨hop, cut, returns, sessions, retry, retries, silence, fair⟩
    split at h
    · obtain rfl := Option.some.inj h
      exact ⟨hop, cut, returns, sessions, retry, retries, silence, fair⟩
    · cases h
  | noticeDest =>
    obtain rfl := Option.some.inj h
    exact ⟨hop, cut, returns, sessions, retry, retries, silence, fair⟩
  | hopLimit =>
    obtain ⟨new_range, rfl⟩ := Params.eq_of_inRange h
    exact ⟨new_range, cut, returns, sessions, retry, retries, silence, fair⟩
  | cutLead =>
    obtain ⟨new_range, rfl⟩ := Params.eq_of_inRange h
    exact ⟨hop, new_range, returns, sessions, retry, retries, silence, fair⟩
  | returnTimeout =>
    obtain ⟨new_range, rfl⟩ := Params.eq_of_inRange h
    exact ⟨hop, cut, new_range, sessions, retry, retries, silence, fair⟩
  | sessionTimeout =>
    obtain ⟨new_range, rfl⟩ := Params.eq_of_inRange h
    exact ⟨hop, cut, returns, new_range, retry, retries, silence, fair⟩
  | noticeRetry =>
    obtain ⟨new_range, rfl⟩ := Params.eq_of_inRange h
    exact ⟨hop, cut, returns, sessions, new_range, retries, silence, fair⟩
  | noticeRetries =>
    obtain ⟨new_range, rfl⟩ := Params.eq_of_inRange h
    exact ⟨hop, cut, returns, sessions, retry, (new_range).2, silence, fair⟩
  | noticeToStation =>
    obtain ⟨-, rfl⟩ := Params.eq_of_inRange h
    exact ⟨hop, cut, returns, sessions, retry, retries, silence, fair⟩
  | localManage =>
    obtain ⟨-, rfl⟩ := Params.eq_of_inRange h
    exact ⟨hop, cut, returns, sessions, retry, retries, silence, fair⟩
  | lineSilence =>
    obtain ⟨new_range, rfl⟩ := Params.eq_of_inRange h
    exact ⟨hop, cut, returns, sessions, retry, retries, new_range, fair⟩
  | normalFair =>
    obtain ⟨new_range, rfl⟩ := Params.eq_of_inRange h
    exact ⟨hop, cut, returns, sessions, retry, retries, silence, new_range⟩

theorem figuresInRange_keeps {s t : State} (k : s.Keeps t) (h : FiguresInRange s) : FiguresInRange t := by
  obtain ⟨params, fairness, discarded, flushed, hits, slots, hops⟩ := h
  have retries : s.params.noticeRetries ≤ 7 := params.2.2.2.2.2.1
  refine ⟨k.params ▸ params, ?_, ?_, ?_, k.active ▸ hits, fun i => k.slots retries i (slots i), fun e he => ?_⟩
  · exact k.fairness.trans (max_le fairness (Nat.le_refl _))
  · exact k.discarded.trans (max_le discarded (Nat.le_refl _))
  · exact k.flushed.trans (max_le flushed (Nat.le_refl _))
  · obtain ⟨e0, he0, same, -⟩ := k.transit e he
    exact same ▸ hops e0 he0

/-- The power-on figures (R20, R142, R177). -/
theorem figuresInRange_of_powerOn {s : State} (params : s.params = .powerOn)
    (counts : s.fairness = 0 ∧ s.discarded = 0 ∧ s.flushed = 0) (active : s.active = []) (transit : s.transit = [])
    (slots : ∀ k : Fin 8, (s.slots.get k).inRange = true) : FiguresInRange s := by
  obtain ⟨fairness, discarded, flushed⟩ := counts
  unfold FiguresInRange
  rw [params, fairness, discarded, flushed, active, transit]
  exact ⟨by decide, Nat.zero_le _, Nat.zero_le _, Nat.zero_le _, by simp, slots, by simp⟩

theorem figuresInRange_invariant : StepInvariant FiguresInRange where
  keeps := figuresInRange_keeps
  prepares := by
    intro c s s' prepared h
    cases prepared with
    | header _ _ _ hits made =>
      obtain ⟨params, fairness, discarded, flushed, active, slots, hops⟩ := h
      refine ⟨params, fairness, discarded, flushed, hits active, slots, fun e he => ?_⟩
      rcases made e he with ⟨e0, he0, same, -⟩ | ⟨near, -, marks, rfl⟩
      · exact same ▸ hops e0 he0
      · have most : s.params.hopLimit ≤ 63 := params.1.2
        simp only [TransitEntry.start, Header.rewrite_hops]
        omega
    | _ => exact h
  reconfigures := by
    intro c s s' change h
    obtain ⟨params, fairness, discarded, flushed, hits, slots, hops⟩ := h
    cases change with
    | params written => exact ⟨Params.write_inRange written params, fairness, discarded, flushed, hits, slots, hops⟩
    | committed _ => exact ⟨params, fairness, discarded, flushed, commitTable_hits hits _, slots, hops⟩
    | _ => exact ⟨params, fairness, discarded, flushed, hits, slots, hops⟩
  sequences := fun _ _ _ _ h => h
  powerOn := fun _ _ _ => figuresInRange_of_powerOn rfl ⟨rfl, rfl, rfl⟩ rfl rfl fun k => by fin_cases k <;> rfl
  asserted := fun _ => figuresInRange_of_powerOn rfl ⟨rfl, rfl, rfl⟩ rfl rfl fun k => by fin_cases k <;> rfl

/-- Settles O58: every range is a step invariant. -/
theorem stepKeepsFiguresInRange : Obligations.StepKeepsFiguresInRange := fun _ _ => figuresInRange_invariant.of_step

/-! ### The forwarding law (R41) -/

theorem State.Reconfigures.transit {s s' : State} {c : Option Command} (h : s.Reconfigures c s') :
    s'.transit = s.transit := by
  cases h <;> rfl

theorem TransitFrom.trans {a b c : List TransitEntry} (h : TransitFrom b c) (k : TransitFrom a b) : TransitFrom a c := by
  intro e he
  obtain ⟨e1, he1, header1, reservation1⟩ := k e he
  obtain ⟨e0, he0, header0, reservation0⟩ := h e1 he1
  exact ⟨e0, he0, header0.trans header1, reservation0.trans reservation1⟩

/-- The end of an event puts no frame in transit. -/
theorem State.settle_transit_from (s : State) : TransitFrom s.settle.transit s.transit := by
  have engine : TransitFrom s.engine.transit s.transit := by
    refine State.engine_induction (P := fun t => TransitFrom t.transit s.transit) (.of_subset (List.Subset.refl _))
      fun t r ready h => ?_
    obtain ⟨-, -, s', change, k⟩ := State.carryOut_runs ready
    exact h.trans (change.transit ▸ k.transit)
  obtain ⟨_, -, k⟩ := s.engine.keeps_placeNotices
  exact engine.trans k.transit

/-- A frame in transit after a command stood there before, or was made at this command's eighth octet. -/
theorem exec_transit {c : Instr} {s t : State} (h : exec c s = .next t) {e : TransitEntry} (he : e ∈ t.transit) :
    (∃ e0 ∈ s.transit, e0.header = e.header ∧ e0.reservation = e.reservation) ∨
      ∃ v rest times f, c = .loopOctet v rest times ∧ s.rx.state = .frame f ∧ f.count = 7 ∧
        ∃ e0, s.Forwards (Header.ofOctets 0 (f.head ++ [v])) e0 ∧ e0.header = e.header := by
  have command : (∀ g m, c ≠ .powerOnReset g m) → c ≠ .powerOnResetAssert → ∃ s', s.Prepares c s' ∧
      TransitFrom t.transit s'.transit := by
    intro release assert
    obtain ⟨s', prepared, k⟩ := blockEffect_keeps c s
    rcases exec_cases h release assert with same | same | same | same <;> rw [same]
    · exact ⟨s, .same c, .of_subset (List.Subset.refl _)⟩
    · exact ⟨s', prepared, k.transit⟩
    · exact ⟨s', prepared, k.transit.trans (State.settle_transit_from _)⟩
    · exact ⟨s, .same c, s.settle_transit_from.trans (State.keeps_resendWaiting _).transit⟩
  by_cases release : ∃ g m, c = .powerOnReset g m
  · obtain ⟨g, m, rfl⟩ := release
    obtain rfl := Host.Outcome.next.inj h
    cases he
  by_cases assert : c = .powerOnResetAssert
  · subst assert
    obtain rfl := Host.Outcome.next.inj h
    cases he
  obtain ⟨s', prepared, from_s'⟩ := command (fun g m hc => release ⟨g, m, hc⟩) assert
  obtain ⟨e0, he0, header, reservation⟩ := from_s' e he
  cases prepared with
  | header frame last _ _ made =>
    rcases made e0 he0 with ⟨e1, he1, header1, reservation1⟩ | fwd
    · exact .inl ⟨e1, he1, header1.trans header, reservation1.trans reservation⟩
    · exact .inr ⟨_, _, _, _, rfl, frame, last, e0, fwd, header⟩
  | _ => exact .inl ⟨e0, he0, header, reservation⟩

/-- Settles O50: a frame made in transit has the header its eighth octet completed, judged to go on. -/
theorem forwardingLaw : Obligations.ForwardingLaw := by
  rintro c s t ⟨-, -, repeater⟩ hn e he
  refine (exec_transit hn he).imp_right ?_
  rintro ⟨v, rest, times, f, rfl, frame, last, e0, ⟨near, foreign, marks, rfl⟩, header⟩
  refine ⟨v, rest, times, f, rfl, frame, last, ?_⟩
  intro h
  have rewritten : e.header = h.rewrite marks := header.symm
  have hops : e.header.tally.hops = h.tally.hops + 1 := by rw [rewritten, Header.rewrite_hops]
  refine ⟨by rw [rewritten]; rfl, by rw [rewritten]; rfl, by rw [rewritten]; rfl, by rw [rewritten]; rfl, hops,
    by rw [hops]; exact near, ?_⟩
  cases hm : s.mode with
  | service => exact foreign hm
  | repeater =>
    intro held
    obtain ⟨i, hi, get⟩ := List.mem_iff_getElem.1 held
    have none := repeater hm ⟨i, by simpa using hi⟩
    have some : s.identity.get ⟨i, by simpa using hi⟩ = some h.sa := get
    rw [none] at some
    cases some

end Sys2Proof.Machine
end

section
/-! SUPPORT. How far each counter may rise: what a frame in the receiver and the entries of the return log still allow is
used up by the ends that are counted, and a block's own effect counts each of its causes once (R87, R91, R151). -/

namespace Sys2Proof.Machine

/-! ### Rises -/

/-- How often the end of an event may still count: a LOST for each entry of the return log, and an end of the frame that is
in the receiver. -/
def State.allowance (s : State) : Counter → Nat
  | .lost => s.log.length
  | .stripped => if s.rx.state.frame?.isSome then 1 else 0
  | .rxBad => if s.rx.state.frame?.isSome then 1 else 0
  | _ => 0

/-- Every counter rises, by so much that what is then allowed stays within `bound`. -/
def State.Rises (s t : State) (bound : Counter → Nat) : Prop :=
  ∀ k, ∃ n, n + t.allowance k ≤ bound k ∧ t.counter k = s.counter k + BitVec.ofNat 32 n

/-- Each of these counters rises by at most one, no other moves, and the return log grows by none. -/
structure State.CountsOnce (s t : State) (ks : List Counter) : Prop where
  counter : ∀ k, t.counter k = s.counter k ∨ k ∈ ks ∧ t.counter k = s.counter k + 1
  log : t.log.length ≤ s.log.length

theorem State.CountsOnce.of_same {s t : State} {ks : List Counter} (counters : t.counters = s.counters)
    (log : t.log.length ≤ s.log.length) : s.CountsOnce t ks := ⟨fun k => .inl (State.counter_congr counters k), log⟩

theorem State.countsOnce_count (s : State) (c : Counter) : s.CountsOnce (s.count c) [c] := by
  refine ⟨fun k => ?_, Nat.le_refl _⟩
  rw [State.counter_count]
  by_cases h : k = c
  · exact .inr ⟨by simp [h], by rw [if_pos h]⟩
  · exact .inl (by rw [if_neg h]; exact BitVec.add_zero _)

theorem State.CountsOnce.mono {s t : State} {ks ls : List Counter} (h : s.CountsOnce t ks) (sub : ks ⊆ ls) :
    s.CountsOnce t ls := ⟨fun k => (h.counter k).imp_right fun ⟨mem, e⟩ => ⟨sub mem, e⟩, h.log⟩

theorem State.CountsOnce.trans {s t u : State} {ks ls : List Counter} (h : s.CountsOnce t ks) (k : t.CountsOnce u ls)
    (apart : ∀ c ∈ ks, c ∉ ls) : s.CountsOnce u (ks ++ ls) := by
  refine ⟨fun c => ?_, k.log.trans h.log⟩
  rcases k.counter c with same | ⟨mem, once⟩
  · rw [same]
    exact (h.counter c).imp_right fun ⟨mem, e⟩ => ⟨List.mem_append_left _ mem, e⟩
  · rcases h.counter c with same | ⟨mem', -⟩
    · rw [once, same]
      exact .inr ⟨List.mem_append_right _ mem, rfl⟩
    · exact absurd mem (apart c mem')

/-- Nothing is counted before or after. -/
theorem State.CountsOnce.same_before {s t u : State} {ks : List Counter} (h : s.CountsOnce t []) (k : t.CountsOnce u ks) :
    s.CountsOnce u ks := h.trans k (by simp)

theorem State.CountsOnce.same_after {s t u : State} {ks : List Counter} (h : s.CountsOnce t ks) (k : t.CountsOnce u []) :
    s.CountsOnce u ks := (h.trans k (by simp)).mono (by simp)

/-- The same from a state with the same counters and the same return log. -/
theorem State.CountsOnce.of_source {s t u : State} {ks : List Counter} (h : t.CountsOnce u ks)
    (counters : t.counters = s.counters) (log : t.log = s.log) : s.CountsOnce u ks :=
  (State.CountsOnce.of_same (ks := []) counters (log ▸ Nat.le_refl _)).same_before h

section
variable {s t u : State} {bound : Counter → Nat}

theorem State.Rises.of_source (h : t.Rises u bound) (counters : t.counters = s.counters) : s.Rises u bound := fun k =>
  have ⟨n, hn, e⟩ := h k
  ⟨n, hn, by rw [e, State.counter_congr counters]⟩

theorem State.Rises.trans (h : s.Rises t bound) (k : t.Rises u t.allowance) : s.Rises u bound := by
  intro c
  obtain ⟨n, hn, e⟩ := h c
  obtain ⟨m, hm, e'⟩ := k c
  exact ⟨n + m, by omega, by rw [e', e, BitVec.add_assoc, ← BitVec.ofNat_add]⟩

theorem State.allowance_le_succ (s : State) (k : Counter) : s.allowance k ≤ s.log.length + 1 := by
  unfold State.allowance
  split
  · omega
  · split <;> omega
  · split <;> omega
  · omega

theorem State.Rises.mono (h : s.Rises t s.allowance) : s.Rises t (fun _ => s.log.length + 1) := fun k =>
  have ⟨n, hn, e⟩ := h k
  ⟨n, hn.trans (s.allowance_le_succ k), e⟩

/-- A block's effect that counts its causes once; ends of a frame are counted only where no frame is left. -/
theorem State.CountsOnce.rises {ks : List Counter} (h : s.CountsOnce t ks) (lost : .lost ∉ ks)
    (ended : t.rx.state.frame? = none ∨ .stripped ∉ ks ∧ .rxBad ∉ ks) : s.Rises t (fun _ => s.log.length + 1) := by
  intro k
  have least := t.allowance_le_succ k
  have log := h.log
  rcases h.counter k with same | ⟨mem, once⟩
  · exact ⟨0, by dsimp only; omega, by rw [same]; exact (BitVec.add_zero _).symm⟩
  · refine ⟨1, ?_, once⟩
    have none : t.allowance k = 0 := by
      rcases ended with gone | ⟨strip, bad⟩ <;> cases k <;> simp_all [State.allowance]
    rw [none]
    exact Nat.le_add_left _ _

theorem State.allowance_le (log : t.log.length ≤ s.log.length)
    (rx : t.rx.state = s.rx.state ∨ t.rx.state.frame? = none) (k : Counter) : t.allowance k ≤ s.allowance k := by
  rcases rx with same | gone
  · unfold State.allowance
    rw [same]
    split <;> omega
  · unfold State.allowance
    rw [gone]
    split
    · exact log
    · exact Nat.zero_le _
    · exact Nat.zero_le _
    · exact Nat.zero_le _

/-- An operation that counts nothing and brings the receiver no frame. -/
theorem State.rises_of_same (counters : t.counters = s.counters) (log : t.log.length ≤ s.log.length)
    (rx : t.rx.state = s.rx.state ∨ t.rx.state.frame? = none) : s.Rises t s.allowance := fun k =>
  ⟨0, by rw [Nat.zero_add]; exact State.allowance_le log rx k,
    by rw [State.counter_congr counters]; exact (BitVec.add_zero _).symm⟩

end

/-! ### Ends of frames and entries -/

theorem State.frameEnd_log_le (s : State) (c : EndCond) : (s.frameEnd c).log.length ≤ s.log.length := by
  cases hv : s.verdict with
  | none =>
    rw [State.frameEnd_of_no_verdict hv]
    split <;> exact Nat.le_refl _
  | some r =>
    rw [State.frameEnd_log hv]
    split
    · unfold State.endReturning
      split
      · exact Nat.le_refl _
      · exact List.length_eraseP_le
    · exact Nat.le_refl _

theorem State.countsOnce_frameEnd (s : State) (c : EndCond) : s.CountsOnce (s.frameEnd c) [.stripped, .rxBad] := by
  refine ⟨fun k => ?_, s.frameEnd_log_le c⟩
  cases hv : s.verdict with
  | none =>
    rw [State.frameEnd_of_no_verdict hv]
    split
    · exact .inl rfl
    · exact ((s.countsOnce_count .rxBad).mono (by simp)).counter k
  | some r =>
    rw [State.frameEnd_counter hv]
    by_cases bad : k = .rxBad ∧ c ≠ .good
    · right
      simp [bad]
    · by_cases strip : k = .stripped ∧ r.verdict = .strip ∧ s.log.any (fun e => !e.isOutstanding)
      · right
        simp [strip]
      · left
        rw [if_neg bad, if_neg strip]
        simp

/-- The frame in the receiver ends, and the receiver holds none. -/
theorem State.rises_abortFrame (s : State) (reason : AbortReason) (rx : LoopRx) (sup : Supervisor)
    (gone : rx.state.frame? = none) : s.Rises { s.abortFrame reason with rx := rx, sup := sup } s.allowance := by
  unfold State.abortFrame
  split
  · rename_i f hf
    intro k
    have once := s.countsOnce_frameEnd (.aborted reason)
    have allowed := State.allowance_le (s := s)
      (t := { s.frameEnd (.aborted reason) with rx := rx, sup := sup }) once.log (.inr gone) k
    rcases once.counter k with same | ⟨mem, rises⟩
    · exact ⟨0, by rwa [Nat.zero_add], same.trans (BitVec.add_zero _).symm⟩
    · refine ⟨1, ?_, rises⟩
      have held : s.rx.state.frame?.isSome = true := by rw [hf]; rfl
      rcases List.mem_pair.1 mem with rfl | rfl <;> simp [State.allowance, gone, held]
  · exact State.rises_of_same rfl (Nat.le_refl _) (.inr gone)

theorem State.rises_silence (s : State) : s.Rises s.silence s.allowance := by
  unfold State.silence
  split
  · exact State.rises_abortFrame (s.raise .lineDown (.time s.sup.lastFlag)) .silence _ _ rfl
  · exact State.rises_of_same rfl (Nat.le_refl _) (.inl rfl)

theorem splitExpired_length (now : Word32) (timeout : Nat) (log : List LogEntry) :
    (splitExpired now timeout log).1.length + (splitExpired now timeout log).2.length = log.length := by
  induction log with
  | nil => rfl
  | cons e es ih =>
    unfold splitExpired
    split
    · split
      · simp only [List.length_cons]
        omega
      · simp
    · simp only [List.length_cons]
      omega

/-- Entries that close LOST leave the log (R87, R91). -/
theorem State.rises_closeLost {s t : State} {es : List LogEntry} (counters : t.counters = (s.closeLost es).counters)
    (log : es.length + t.log.length = s.log.length) (rx : t.rx = s.rx) : s.Rises t s.allowance := by
  intro k
  have closed : t.counter k = s.counter k + if k = .lost then BitVec.ofNat 32 es.length else 0 := by
    rw [← State.counter_countN]
    exact State.counter_congr counters k
  have allowed := State.allowance_le (s := s) (t := t) (by omega) (.inl (by rw [rx])) k
  by_cases lost : k = .lost
  · subst lost
    rw [if_pos rfl] at closed
    exact ⟨es.length, by simp only [State.allowance]; omega, closed⟩
  · rw [if_neg lost] at closed
    exact ⟨0, by omega, closed⟩

theorem State.rises_expireLog (s : State) : s.Rises s.expireLog s.allowance :=
  State.rises_closeLost (es := (splitExpired s.timer s.params.returnTimeout s.log).1) rfl
    (splitExpired_length _ _ _) rfl

/-- A matched frame's header closes the older entries LOST; an unmatched one is STRAY (R87, R88). -/
theorem State.rises_stripHeader (s : State) (h : Header) : s.Rises (s.stripHeader h) (fun _ => s.log.length + 1) := by
  unfold State.stripHeader
  split
  · exact (s.countsOnce_count .stray).rises (by simp) (.inr (by simp))
  · rename_i older e newer found
    refine State.Rises.mono (State.rises_closeLost (es := older.filter (fun x => x.isOutstanding)) rfl ?_ rfl)
    have all := splitMatch_some found
    have parts := List.length_eq_length_filter_add (l := older) (fun x => x.isOutstanding)
    rw [all]
    simp only [List.length_append, List.length_cons]
    omega

/-! ### The engine's runs -/

/-- What no run touches but PARAM WRITE's, RESTART's and COUNTERS READ's. -/
def State.countedPart (s : State) := (s.counters, s.log, s.rx)

theorem State.asOwner_countedPart {s : State} {who : Requester} {run : Session → State → State × Answer}
    (h : ∀ (x : Session) (t : State), (run x t).1.countedPart = t.countedPart) :
    (s.asOwner who run).1.countedPart = s.countedPart := by
  unfold State.asOwner State.ifAuthorized
  repeat' split
  · rfl
  · exact h _ _
  · rfl
  · rfl

theorem State.runOf_countedPart {c : Command} (write : c ≠ .paramWrite) (restart : c ≠ .restart)
    (read : c ≠ .countersRead) (r : Request) (s : State) :
    (State.runOf (some c) r s).1.countedPart = s.countedPart := by
  cases c with
  | paramWrite => exact absurd rfl write
  | restart => exact absurd rfl restart
  | countersRead => exact absurd rfl read
  | status => rfl
  | paramRead =>
    show (State.runParamRead r s).1.countedPart = _
    unfold State.runParamRead
    repeat' split
    all_goals rfl
  | listRead =>
    show (State.runListRead r s).1.countedPart = _
    unfold State.runListRead
    repeat' split
    all_goals rfl
  | listWrite =>
    show (State.runListWrite r s).1.countedPart = _
    unfold State.runListWrite State.ifAuthorized State.writeList
    repeat' split
    all_goals rfl
  | tableRead =>
    show (State.runTableRead r s).1.countedPart = _
    unfold State.runTableRead
    repeat' split
    all_goals rfl
  | sessionOpen =>
    show (State.runSessionOpen r s).1.countedPart = _
    unfold State.runSessionOpen State.ifAuthorized
    repeat' split
    all_goals rfl
  | entryInsert =>
    show (State.runEntryInsert r s).1.countedPart = _
    unfold State.runEntryInsert
    split
    · refine State.asOwner_countedPart fun x t => ?_
      unfold State.insertEntry
      repeat' split
      all_goals rfl
    · rfl
  | entryReplace =>
    show (State.runEntryReplace r s).1.countedPart = _
    unfold State.runEntryReplace
    split
    · refine State.asOwner_countedPart fun x t => ?_
      unfold State.replaceEntry
      repeat' split
      all_goals rfl
    · rfl
  | entryRemove =>
    show (State.runEntryRemove r s).1.countedPart = _
    unfold State.runEntryRemove
    split
    · refine State.asOwner_countedPart fun x t => ?_
      unfold State.removeEntry
      repeat' split
      all_goals rfl
    · rfl
  | sessionCommit => exact State.asOwner_countedPart fun _ _ => rfl
  | sessionDiscard => exact State.asOwner_countedPart fun _ _ => rfl
  | noticeAck =>
    show (State.runNoticeAck r s).1.countedPart = _
    unfold State.runNoticeAck State.ifAuthorized State.ackNotice
    repeat' split
    all_goals rfl

theorem State.rises_of_countedPart {s t : State} (h : t.countedPart = s.countedPart) : s.Rises t s.allowance := by
  simp only [State.countedPart, Prod.mk.injEq] at h
  obtain ⟨counters, log, rx⟩ := h
  exact State.rises_of_same counters (log ▸ Nat.le_refl _) (.inl (by rw [rx]))

theorem State.rises_afterWrite (s : State) (p : Param) : s.Rises (s.afterWrite p) s.allowance := by
  unfold State.afterWrite
  split
  · exact s.rises_expireLog
  · obtain ⟨_, _, _, h⟩ := s.expireSession_frame
    rw [h]
    exact State.rises_of_countedPart rfl
  · exact s.rises_silence
  · exact State.rises_of_countedPart rfl

theorem State.causeStatus_countedPart (s : State) : s.causeStatus.countedPart = s.countedPart := by
  obtain ⟨_, _, h⟩ := s.causeStatus_frame
  rw [h]
  rfl

/-- RESTART empties the return log and leaves the counters (R97, R153). -/
theorem State.restart_countedPart (s : State) (r : Request) :
    (s.restart r).countedPart = (s.counters, [], ⟨.hunt, 0, []⟩) :=
  State.causeStatus_countedPart
    { s.restartLoop.restartQueues.flushLog with flushed := saturate (s.flushed + (s.urgent.length + s.normal.length)) }

theorem State.rises_restart (s : State) (r : Request) : s.Rises (s.restart r) s.allowance := by
  have part := s.restart_countedPart r
  simp only [State.countedPart, Prod.mk.injEq] at part
  obtain ⟨counters, log, rx⟩ := part
  exact State.rises_of_same counters (by simp [log]) (.inr (by rw [rx]; rfl))

theorem State.rises_runOf {c : Option Command} (read : c ≠ some .countersRead) (r : Request) (s : State) :
    s.Rises (State.runOf c r s).1 s.allowance := by
  have quiet : s.Rises s s.allowance := State.rises_of_countedPart rfl
  rcases c with - | c
  · exact quiet
  by_cases write : c = .paramWrite
  · subst write
    show s.Rises (State.runParamWrite r s).1 _
    unfold State.runParamWrite State.ifAuthorized State.writeParam
    repeat' split
    · exact quiet
    · exact quiet
    · rename_i ps _
      exact State.rises_afterWrite { s with params := ps } _
    · exact quiet
    · exact quiet
  by_cases restart : c = .restart
  · subst restart
    show s.Rises (s.ifAuthorized r.source (s.restart r, .ok [])).1 _
    unfold State.ifAuthorized
    split
    · exact s.rises_restart r
    · exact quiet
  · exact State.rises_of_countedPart (State.runOf_countedPart write restart (fun h => read (by rw [h])) r s)

theorem State.rises_reply (s : State) (r : Request) (a : Answer) : s.Rises (s.reply r a) s.allowance := by
  obtain ⟨_, _, h⟩ := s.reply_frame r a
  rw [h]
  exact State.rises_of_countedPart rfl

theorem State.rises_placeNotices (s : State) : s.Rises s.placeNotices s.allowance := by
  obtain ⟨_, _, _, h⟩ := s.placeNotices_frame
  rw [h]
  exact State.rises_of_countedPart rfl

theorem State.rises_resendWaiting (s : State) : s.Rises s.resendWaiting s.allowance := by
  obtain ⟨_, _, h⟩ := s.resendWaiting_frame
  rw [h]
  exact State.rises_of_countedPart rfl

/-! ### The blocks' effects -/

theorem State.countsOnce_causeStatus (s : State) : s.CountsOnce s.causeStatus [] := by
  obtain ⟨_, _, h⟩ := s.causeStatus_frame
  rw [h]
  exact .of_same rfl (Nat.le_refl _)

theorem State.countsOnce_discard (s : State) : s.CountsOnce s.discard [.portDiscarded] :=
  have counted : s.CountsOnce { s.count .portDiscarded with discarded := saturate (s.discarded + 1) } [.portDiscarded] :=
    (s.countsOnce_count .portDiscarded).same_after (.of_same rfl (Nat.le_refl _))
  counted.same_after (State.countsOnce_causeStatus _)

theorem State.countsOnce_refuse (s : State) (tag : Tag) (cls : StationClass) (reason : Reason) :
    s.CountsOnce (s.refuse tag cls reason) [.portDiscarded] := by
  unfold State.refuse
  split
  · exact .of_same rfl (Nat.le_refl _)
  · exact s.countsOnce_discard

theorem State.countsOnce_accept (s : State) (m : StationSubmission) :
    s.CountsOnce (s.accept m) [.mgmtDropped, .portDiscarded] := by
  have refuse := fun reason => (s.countsOnce_refuse m.tag m.cls reason).mono
    (List.subset_cons_self Counter.mgmtDropped [.portDiscarded])
  unfold State.accept
  split
  · exact refuse _
  split
  · exact refuse _
  split
  · unfold State.offerLocal
    split
    · exact .of_same rfl (Nat.le_refl _)
    · exact (s.countsOnce_count .mgmtDropped).trans (State.countsOnce_refuse _ _ _ _) (by simp)
  split
  · exact refuse _
  split
  · exact refuse _
  · unfold State.enqueue
    split <;> exact .of_same rfl (Nat.le_refl _)

theorem State.countsOnce_breakEffects (s : State) : s.CountsOnce s.breakEffects [] :=
  .of_same rfl (by simp [State.breakEffects])

theorem State.countsOnce_stationExcess (s : State) (v : Byte) (rest : List Bool) :
    s.CountsOnce (s.stationExcess v rest) [.portDiscarded] := by
  have hunted : ∀ t : State, t.CountsOnce t.breakInHunt [] := by
    intro t
    unfold State.breakInHunt
    split
    · exact t.countsOnce_breakEffects
    · exact .of_same rfl (Nat.le_refl _)
  unfold State.stationExcess
  refine State.CountsOnce.same_after ?_ (hunted _)
  exact (State.countsOnce_discard _).of_source rfl rfl

theorem State.countsOnce_stationDiscard (s : State) (how : StationEnd) :
    s.CountsOnce (s.stationDiscard how) [.portDiscarded] := by
  have same : s.CountsOnce s [.portDiscarded] := .of_same rfl (Nat.le_refl _)
  unfold State.stationDiscard
  split
  · split
    · split
      · exact same
      · exact (State.countsOnce_discard { s with srx := s.srx.flag }).of_source rfl rfl
    · split
      · exact s.countsOnce_stationExcess _ _
      · exact same
    · exact (State.countsOnce_discard { s with srx := s.srx.ones 7 }).of_source rfl rfl
  · exact same

theorem State.countsOnce_stationOctet (s : State) (v : Byte) (rest : List Bool) :
    s.CountsOnce (s.stationOctet v rest) [.portDiscarded] := by
  unfold State.stationOctet
  dsimp only
  split
  · exact s.countsOnce_stationExcess v rest
  · split
    · exact .of_same rfl (by simp [State.breakEffects])
    · exact .of_same rfl (Nat.le_refl _)

theorem State.countsOnce_stationGood (s : State) :
    s.CountsOnce s.stationGood [.mgmtDropped, .portDiscarded] := by
  have same : s.CountsOnce s [.mgmtDropped, .portDiscarded] :=
    .of_same rfl (Nat.le_refl _)
  unfold State.stationGood
  split
  · split
    · exact (State.countsOnce_accept { s with srx := s.srx.flag } _).of_source rfl rfl
    · exact same
  · exact same

theorem State.countsOnce_reportSent (s : State) : s.CountsOnce s.reportSent [.delivered] := by
  unfold State.reportSent State.recordSent
  split
  · split
    · exact .of_same rfl (Nat.le_refl _)
    · split <;> exact .of_same rfl (Nat.le_refl _)
  · exact .of_same rfl (Nat.le_refl _)
  · exact (s.countsOnce_count .delivered).same_after (.of_same rfl (Nat.le_refl _))
  · exact .of_same rfl (Nat.le_refl _)

theorem State.countsOnce_retryDeadline (s : State) (k : NoticeKind) :
    s.CountsOnce (s.retryDeadline k) [.noticesAbandoned] := by
  have same : s.CountsOnce s [.noticesAbandoned] := .of_same rfl (Nat.le_refl _)
  unfold State.retryDeadline
  split
  · split
    · split
      · split
        · exact .of_same rfl (Nat.le_refl _)
        · exact (State.countsOnce_count (s.setSlot k .idle) _).of_source rfl rfl
      · exact same
    · exact same
  · exact same

theorem State.countsOnce_underrun (s : State) : s.CountsOnce s.underrun [.underrun] := by
  have same : s.CountsOnce s [.underrun] := .of_same rfl (Nat.le_refl _)
  unfold State.underrun
  split
  · exact same
  · split
    · exact (s.countsOnce_count .underrun).same_after (.of_same rfl (Nat.le_refl _))
    · exact same

theorem State.countsOnce_completeForward (s : State) : s.CountsOnce s.completeForward [.forwarded] := by
  have same : s.CountsOnce s [.forwarded] := .of_same rfl (Nat.le_refl _)
  unfold State.completeForward
  split
  · exact same
  · split
    · exact (s.countsOnce_count .forwarded).same_after (.of_same rfl (Nat.le_refl _))
    · exact same

theorem State.countsOnce_endInsertion (s : State) : s.CountsOnce s.endInsertion [.inserted] := by
  unfold State.endInsertion
  split
  · exact (s.countsOnce_count .inserted).same_after (.of_same rfl (Nat.le_refl _))
  · exact .of_same rfl (Nat.le_refl _)

/-! ### The header's counts (R32, R34 to R37, R48, R102, R134) -/

theorem State.countsOnce_reserveTransit (s : State) (h : Header) (marks : Option Mark) :
    s.CountsOnce (s.reserveTransit h marks) [.transitRefused] := by
  unfold State.reserveTransit
  split
  · exact .of_same rfl (Nat.le_refl _)
  · exact (s.countsOnce_count .transitRefused).same_after (.of_same rfl (Nat.le_refl _))

theorem State.countsOnce_reserveDelivery (s : State) (h : Header) (label : Option Byte) :
    s.CountsOnce (s.reserveDelivery h label).2 [.deliveryRefused] := by
  unfold State.reserveDelivery
  split
  · exact .of_same rfl (Nat.le_refl _)
  · exact (s.countsOnce_count .deliveryRefused).same_after (.of_same rfl (Nat.le_refl _))

theorem State.countsOnce_offerRequest (s : State) (sa : Address) :
    s.CountsOnce (s.offerRequest sa).2 [.mgmtDropped] := by
  unfold State.offerRequest
  split
  · exact .of_same rfl (Nat.le_refl _)
  · exact s.countsOnce_count .mgmtDropped

theorem State.countsOnce_hitMatched (s : State) (f : Finding) : s.CountsOnce (s.hitMatched f) [] := by
  obtain ⟨_, h, -⟩ := s.hitMatched_frame f
  rw [h]
  exact .of_same rfl (Nat.le_refl _)

theorem State.rises_judgeHeader (s : State) (h : Header) (f : Finding) :
    s.Rises (s.judgeHeader h f) (fun _ => s.log.length + 1) := by
  have verdict : ∀ (t : State) (v : Option VerdictRecord), t.CountsOnce { t with verdict := v } [] :=
    fun t v => .of_same rfl (Nat.le_refl _)
  have hit := s.countsOnce_hitMatched f
  unfold State.judgeHeader
  dsimp only
  split
  · exact ((s.countsOnce_count .badHeader).same_after (verdict _ _)).rises (by simp) (.inr (by simp))
  · exact s.rises_stripHeader h
  · exact ((s.countsOnce_count .orphaned).same_after (.of_same rfl (Nat.le_refl _))).rises (by simp) (.inr (by simp))
  · exact (((s.countsOnce_offerRequest h.sa).trans (State.countsOnce_reserveTransit _ _ _) (by simp)).same_after
      (verdict _ _)).rises (by simp) (.inr (by simp))
  · exact ((hit.same_before (State.countsOnce_reserveTransit _ _ _)).same_after (verdict _ _)).rises (by simp)
      (.inr (by simp))
  · exact ((hit.same_before ((State.countsOnce_reserveDelivery _ _ _).trans (State.countsOnce_reserveTransit _ _ _)
      (by simp))).same_after (verdict _ _)).rises (by simp) (.inr (by simp))
  · exact ((hit.same_before (State.countsOnce_count _ .dropped)).same_after (verdict _ _)).rises (by simp)
      (.inr (by simp))

theorem State.rises_loopOctet (s : State) (v : Byte) (rest : List Bool) :
    s.Rises (s.loopOctet v rest) (fun _ => s.log.length + 1) := by
  have same : ∀ {t : State}, t.counters = s.counters → t.log = s.log → s.Rises t (fun _ => s.log.length + 1) :=
    fun counters log => (State.CountsOnce.of_same (ks := []) counters (log ▸ Nat.le_refl _)).rises (by simp) (.inr (by simp))
  cases hs : s.rx.state with
  | hunt =>
    rw [State.loopOctet_of_hunt hs]
    exact same rfl rfl
  | fill =>
    rw [State.loopOctet_of_fill hs]
    exact same rfl rfl
  | frame f =>
    rcases Nat.lt_trichotomy f.count 7 with early | last | after
    · rw [State.loopOctet_of_header hs v rest early]
      exact same rfl rfl
    · rw [State.loopOctet_of_last hs v rest last]
      exact State.rises_judgeHeader { s with rx := _ } _ _
    · rcases Nat.lt_or_ge f.count (8 + f.length) with info | beyond
      · rw [State.loopOctet_of_info hs v rest after info, State.infoOctet_eq]
        exact same rfl rfl
      · by_cases excess : f.count = 8 + f.length + 2
        · rw [State.loopOctet_of_excess hs v rest excess]
          have ended : s.CountsOnce { s.frameEnd .length with rx := ⟨.hunt, 0, []⟩ } [.stripped, .rxBad] :=
            (s.countsOnce_frameEnd .length).same_after (.of_same rfl (Nat.le_refl _))
          exact ended.rises (by simp) (.inl rfl)
        · rw [State.loopOctet_of_check hs v rest beyond excess]
          exact same rfl rfl

theorem State.rises_loopFlag (s : State) (tail : List Bool) :
    s.Rises (s.loopFlag tail) (fun _ => s.log.length + 1) := by
  have ended : ∀ {t u : State}, s.CountsOnce t [.stripped, .rxBad] → u.counters = t.counters → u.log = t.log →
      u.rx.state.frame? = none → s.Rises u (fun _ => s.log.length + 1) := fun h counters log gone =>
    (h.same_after (.of_same counters (log ▸ Nat.le_refl _))).rises (by simp) (.inl gone)
  have supervised : ∀ (t : State) (c : Option EndCond), s.CountsOnce t [.stripped, .rxBad] →
      s.Rises ({ t with rx := ⟨.fill, 0, []⟩ }.superviseFlag c) (fun _ => s.log.length + 1) := by
    intro t c h
    unfold State.superviseFlag
    dsimp only
    split
    · exact ended h rfl rfl rfl
    · exact ended h rfl rfl rfl
  have counted : s.CountsOnce (match s.flagEnds tail with
      | some c => s.frameEnd c
      | none => s) [.stripped, .rxBad] := by
    split
    · exact s.countsOnce_frameEnd _
    · exact .of_same rfl (Nat.le_refl _)
  exact supervised _ _ counted

/-- An insertion's start counts nothing and appends one entry (R76). -/
theorem State.arbitrate_counts (s : State) :
    s.arbitrate.counters = s.counters ∧ s.arbitrate.log.length ≤ s.log.length + 1 := by
  have started : ∀ (t : State) (n : Nat), (t.causeIfWasFull n).counters = t.counters ∧ (t.causeIfWasFull n).log = t.log := by
    intro t n
    obtain ⟨_, _, h⟩ := t.causeIfWasFull_frame n
    rw [h]
    exact ⟨rfl, rfl⟩
  unfold State.arbitrate
  split
  · split
    · split <;> exact ⟨rfl, Nat.le_succ _⟩
    · rcases s.insert_cases with h | ⟨f, rest, h⟩ | ⟨f, rest, h⟩ | ⟨f, rest, h⟩ <;> rw [h]
      · exact ⟨rfl, Nat.le_succ _⟩
      · exact ⟨rfl, by simp [State.startOwn]⟩
      · rw [State.startUrgent, (started _ _).1, (started _ _).2]
        exact ⟨rfl, by simp⟩
      · rw [State.startNormal, (started _ _).1, (started _ _).2]
        exact ⟨rfl, by simp⟩
  · exact ⟨rfl, Nat.le_succ _⟩

theorem State.rises_arbitrate (s : State) : s.Rises s.arbitrate (fun _ => s.log.length + 1) := by
  obtain ⟨counters, log⟩ := s.arbitrate_counts
  intro k
  refine ⟨0, ?_, by rw [State.counter_congr counters]; exact (BitVec.add_zero _).symm⟩
  rw [Nat.zero_add]
  show s.arbitrate.allowance k ≤ s.log.length + 1
  unfold State.allowance
  split
  · exact log
  · split <;> omega
  · split <;> omega
  · exact Nat.zero_le _

/-- No block's effect counts more than the entries of the return log and one. -/
theorem blockEffect_rises (c : Instr) (s : State) : s.Rises (blockEffect c s) (fun _ => s.log.length + 1) := by
  have once : ∀ {t : State} {ks : List Counter}, s.CountsOnce t ks → .lost ∉ ks → .stripped ∉ ks → .rxBad ∉ ks →
      s.Rises t (fun _ => s.log.length + 1) := fun h lost strip bad => h.rises lost (.inr ⟨strip, bad⟩)
  have same : ∀ {t : State}, t.counters = s.counters → t.log = s.log → s.Rises t (fun _ => s.log.length + 1) :=
    fun counters log => once (ks := []) (.of_same counters (log ▸ Nat.le_refl _)) (by simp) (by simp) (by simp)
  cases c with
  | loopFlag tail times =>
    obtain ⟨transit, timed⟩ := s.octetTimes_frame times
    show s.Rises ((s.octetTimes times).loopFlag tail) _
    rw [timed]
    exact (State.rises_loopFlag { s with transit := transit } tail).of_source rfl
  | loopOctet v rest times =>
    obtain ⟨transit, timed⟩ := s.octetTimes_frame times
    show s.Rises ((s.octetTimes times).loopOctet v rest) _
    rw [timed]
    exact (State.rises_loopOctet { s with transit := transit } v rest).of_source rfl
  | underrun times =>
    obtain ⟨transit, timed⟩ := s.octetTimes_frame times
    show s.Rises (s.octetTimes times).underrun _
    rw [timed]
    exact ((State.countsOnce_underrun { s with transit := transit }).of_source rfl rfl).rises (by simp) (.inr (by simp))
  | arbiterChoice => exact s.rises_arbitrate
  | stationFrameGood => exact once s.countsOnce_stationGood (by simp) (by simp) (by simp)
  | loopAbort => exact (s.rises_abortFrame .abort ⟨.hunt, 7, []⟩ _ rfl).mono
  | lineIdle => exact (s.rises_abortFrame .abort ⟨.hunt, 15, []⟩ _ rfl).mono
  | lineSilenceDeadline => exact s.rises_silence.mono
  | forwardComplete => exact once s.countsOnce_completeForward (by simp) (by simp) (by simp)
  | insertionEnd => exact once s.countsOnce_endInsertion (by simp) (by simp) (by simp)
  | abortComplete =>
    show s.Rises s.completeAbort _
    unfold State.completeAbort
    split <;> exact same rfl rfl
  | returnTimeoutExpiry => exact s.rises_expireLog.mono
  | portBreak bits =>
    show s.Rises (s.startBreak bits) _
    unfold State.startBreak
    split
    · exact once ((State.countsOnce_breakEffects { s with srx := s.srx.pass bits }).of_source rfl rfl) (by simp) (by simp) (by simp)
    · exact same rfl rfl
  | portBreakEnd =>
    show s.Rises s.endBreak _
    unfold State.endBreak
    split
    · exact once ((State.countsOnce_causeStatus { s with port := .active, srx := s.srx.flag }).of_source rfl rfl) (by simp) (by simp) (by simp)
    · exact same rfl rfl
  | stationFrameDiscard how => exact once (s.countsOnce_stationDiscard how) (by simp) (by simp) (by simp)
  | portTxChoice =>
    obtain ⟨_, _, _, _, _, h⟩ := s.portChoice_frame
    show s.Rises s.portChoice _
    rw [h]
    exact same rfl rfl
  | portReportSent => exact once s.countsOnce_reportSent (by simp) (by simp) (by simp)
  | portTxAbortComplete =>
    show s.Rises s.portAbortSent _
    unfold State.portAbortSent
    split <;> exact same rfl rfl
  | sessionTimeoutExpiry =>
    obtain ⟨_, _, _, h⟩ := s.expireSession_frame
    show s.Rises s.expireSession _
    rw [h]
    exact same rfl rfl
  | noticeRetryDeadline k => exact once (s.countsOnce_retryDeadline k) (by simp) (by simp) (by simp)
  | stationFlag tail =>
    show s.Rises s.stationFlag _
    unfold State.stationFlag
    split <;> exact same rfl rfl
  | stationOctet v rest => exact once (s.countsOnce_stationOctet v rest) (by simp) (by simp) (by simp)
  | stationAbort idle =>
    show s.Rises (s.stationAbort idle) _
    unfold State.stationAbort
    split <;> exact same rfl rfl
  | _ => exact same rfl rfl

end Sys2Proof.Machine
end

section
/-! SUPPORT. What a command changes only where a request asks for it (R27, R142, R146, R151, R168), and the step law that
says so over every command. -/

namespace Sys2Proof.Machine

/-! ### Requests asked -/

/-- A complete request in the queue has this command. -/
def State.Asks (s : State) (k : Command) : Prop := ∃ r ∈ s.requests, r.complete = true ∧ r.command = some k

/-- A request for `k` stands in the queue, or the command is the station frame that becomes one. -/
def State.Asked (s : State) (c : Instr) (k : Command) : Prop :=
  (∃ r ∈ s.requests, r.command = some k) ∨
  (c = .stationFrameGood ∧ ∃ f info, s.srx.state = .frame f info ∧
    (⟨.station 0, info, true⟩ : Request).command = some k)

theorem State.Keeps.asks {s t : State} (h : s.Keeps t) {k : Command} : t.Asks k → s.Asks k :=
  fun ⟨r, hr, complete, command⟩ => ⟨r, h.requests r hr complete, complete, command⟩

theorem State.Asks.asked {s : State} {k : Command} (h : s.Asks k) (c : Instr) : s.Asked c k :=
  have ⟨r, hr, _, command⟩ := h
  .inl ⟨r, hr, command⟩

theorem State.Reconfigures.requests {s t : State} {c : Option Command} (h : s.Reconfigures c t) :
    t.requests = s.requests := by
  cases h <;> rfl

theorem State.Runs.asks {s t : State} {c : Option Command} (h : s.Runs c t) {k : Command} : t.Asks k → s.Asks k := by
  obtain ⟨s', change, keeps⟩ := h
  intro asks
  obtain ⟨r, hr, rest⟩ := keeps.asks asks
  exact ⟨r, change.requests ▸ hr, rest⟩

/-- A command's own change brings no request but the station frame's. -/
theorem State.Prepares.asked {s s' : State} {c : Instr} (h : s.Prepares c s') {k : Command} (asks : s'.Asks k) :
    s.Asked c k := by
  obtain ⟨r, hr, complete, command⟩ := asks
  cases h with
  | completed tail times =>
    obtain ⟨q, hq, rfl⟩ := List.mem_map.1 hr
    refine .inl ⟨q, hq, ?_⟩
    rw [← command]
    split <;> rfl
  | submitted tag frame =>
    rcases List.mem_append.1 hr with hr | hr
    · exact .inl ⟨r, hr, command⟩
    · obtain rfl := List.mem_singleton.1 hr
      exact .inr ⟨rfl, _, _, frame, command⟩
  | _ => exact .inl ⟨r, hr, command⟩

/-! ### Configuration changes by its request only -/

/-- Parameters, lists, and epoch and table change only where a request for it is asked; the rest that is fixed, never. -/
structure State.ChangesAsked (asked : Command → Prop) (s t : State) : Prop where
  fixed : t.fixedPart = s.fixedPart
  params : ¬ asked .paramWrite → t.params = s.params
  lists : ¬ asked .listWrite → t.identity = s.identity ∧ t.managers = s.managers
  table : ¬ asked .sessionCommit → t.epoch = s.epoch ∧ t.active = s.active

section
variable {asked : Command → Prop} {s t u : State}

theorem State.Keeps.changesAsked (h : s.Keeps t) (asked : Command → Prop) : s.ChangesAsked asked t :=
  ⟨h.fixed, fun _ => h.params, fun _ => ⟨h.identity, h.managers⟩, fun _ => ⟨h.epoch, h.active⟩⟩

theorem State.ChangesAsked.trans (h : s.ChangesAsked asked t) (k : t.ChangesAsked asked u) : s.ChangesAsked asked u where
  fixed := k.fixed.trans h.fixed
  params := fun no => (k.params no).trans (h.params no)
  lists := fun no =>
    ⟨(k.lists no).1.trans (h.lists no).1, (k.lists no).2.trans (h.lists no).2⟩
  table := fun no =>
    ⟨(k.table no).1.trans (h.table no).1, (k.table no).2.trans (h.table no).2⟩

theorem State.ChangesAsked.with_noticeSeq (h : s.ChangesAsked asked t) (n : Byte) :
    ({ s with noticeSeq := n } : State).ChangesAsked asked { t with noticeSeq := n } where
  fixed := by
    have fixed := h.fixed
    simp only [State.fixedPart, Prod.mk.injEq] at fixed ⊢
    obtain ⟨strapped, mode, timer, reset, pending, logSeq, -⟩ := fixed
    exact ⟨strapped, mode, timer, reset, pending, logSeq, trivial⟩
  params := h.params
  lists := h.lists
  table := h.table

theorem State.Runs.changesAsked {c : Option Command} (h : s.Runs c t) (ask : ∀ k, c = some k → asked k) :
    s.ChangesAsked asked t := by
  obtain ⟨s', change, keeps⟩ := h
  refine State.ChangesAsked.trans ?_ (keeps.changesAsked asked)
  have same : s.ChangesAsked asked s := (State.Keeps.refl s).changesAsked asked
  cases change with
  | nothing => exact same
  | params h => exact { same with params := fun no => absurd (ask _ rfl) no }
  | identity l => exact { same with lists := fun no => absurd (ask _ rfl) no }
  | managers l => exact { same with lists := fun no => absurd (ask _ rfl) no }
  | staged c sound => exact { same with }
  | committed hx => exact { same with table := fun no => absurd (ask _ rfl) no }

/-- The chain changes what its requests ask for. -/
theorem State.engine_changesAsked (ask : ∀ k, s.Asks k → asked k) : s.ChangesAsked asked s.engine := by
  have both : s.ChangesAsked asked s.engine ∧ ∀ k, s.engine.Asks k → asked k := by
    refine State.engine_induction (P := fun t => s.ChangesAsked asked t ∧ ∀ k, t.Asks k → asked k)
      ⟨(State.Keeps.refl s).changesAsked asked, ask⟩ ?_
    rintro t r ready ⟨changes, ask⟩
    obtain ⟨hr, complete, runs⟩ := State.carryOut_runs ready
    exact ⟨changes.trans (runs.changesAsked fun k command => ask k ⟨r, hr, complete, command⟩),
      fun k asks => ask k (runs.asks asks)⟩
  exact both.1

theorem State.settle_changesAsked (ask : ∀ k, s.Asks k → asked k) :
    ∃ n, (n = s.noticeSeq ∨ n = s.noticeSeq + 1) ∧ ({ s with noticeSeq := n } : State).ChangesAsked asked s.settle := by
  have engine := State.engine_changesAsked ask
  have seq : s.engine.noticeSeq = s.noticeSeq := congrArg (fun x => x.2.2.2.2.2.2) engine.fixed
  obtain ⟨n, hn, keeps⟩ := s.engine.keeps_placeNotices
  exact ⟨n, seq ▸ hn, (engine.with_noticeSeq n).trans (keeps.changesAsked asked)⟩

end

/-! ### A command's own change -/

theorem State.Prepares.fixed {s s' : State} {c : Instr} (h : s.Prepares c s') :
    s'.strapped = s.strapped ∧ s'.mode = s.mode ∧ s'.timer = s.timer ∧ s'.resetAsserted = s.resetAsserted ∧
    s'.pending = s.pending ∧ s'.noticeSeq = s.noticeSeq := by
  cases h <;> exact ⟨rfl, rfl, rfl, rfl, rfl, rfl⟩

theorem State.Prepares.logSeq {s s' : State} {c : Instr} (h : s.Prepares c s') (no : c ≠ .arbiterChoice) :
    s'.logSeq = s.logSeq := by
  cases h with
  | started n => exact absurd rfl no
  | _ => rfl

theorem State.Prepares.settings {s s' : State} {c : Instr} (h : s.Prepares c s') :
    s'.params = s.params ∧ s'.identity = s.identity ∧ s'.managers = s.managers ∧ s'.epoch = s.epoch := by
  cases h <;> exact ⟨rfl, rfl, rfl, rfl⟩

theorem State.Prepares.rules {s s' : State} {c : Instr} (h : s.Prepares c s') :
    s'.active.map (fun e => e.rule) = s.active.map (fun e => e.rule) := by
  cases h with
  | header _ _ rules _ _ => exact rules
  | _ => rfl

theorem State.Prepares.active {s s' : State} {c : Instr} (h : s.Prepares c s')
    (no : ∀ v rest times, c ≠ .loopOctet v rest times) : s'.active = s.active := by
  cases h with
  | header _ _ _ _ _ => exact absurd rfl (no _ _ _)
  | _ => rfl

/-- Every command: its own change, then what requests ask for. -/
theorem exec_changesAsked {c : Instr} {s t : State} (h : exec c s = .next t) (release : ∀ g m, c ≠ .powerOnReset g m)
    (assert : c ≠ .powerOnResetAssert) :
    ∃ s' n, s.Prepares c s' ∧ (n = s.noticeSeq ∨ n = s.noticeSeq + 1) ∧
      ({ s' with noticeSeq := n } : State).ChangesAsked (s.Asked c) t := by
  obtain ⟨s', prepared, keeps⟩ := blockEffect_keeps c s
  obtain ⟨-, -, -, -, -, seq'⟩ := prepared.fixed
  have seq : (blockEffect c s).noticeSeq = s.noticeSeq := (congrArg (fun x => x.2.2.2.2.2.2) keeps.fixed).trans seq'
  have block := keeps.changesAsked (s.Asked c)
  rcases exec_cases h release assert with same | same | same | same <;> rw [same]
  · exact ⟨s, s.noticeSeq, .same c, .inl rfl, (State.Keeps.refl s).changesAsked _⟩
  · refine ⟨s', s'.noticeSeq, prepared, .inl seq', block⟩
  · obtain ⟨n, hn, changes⟩ := State.settle_changesAsked fun k asks => prepared.asked (keeps.asks asks)
    exact ⟨s', n, prepared, seq ▸ hn, (block.with_noticeSeq n).trans changes⟩
  · obtain ⟨n, hn, changes⟩ := State.settle_changesAsked fun k (asks : s.Asks k) => asks.asked c
    exact ⟨s, n, .same c, hn, changes.trans ((State.keeps_resendWaiting _).changesAsked _)⟩

/-! ### Counters (R151) -/

/-- No chain counts beyond its allowance, but where COUNTERS READ is asked. -/
theorem State.rises_engine {s : State} (read : ¬ s.Asks .countersRead) : s.Rises s.engine s.allowance := by
  have both : s.Rises s.engine s.allowance ∧ ¬ s.engine.Asks .countersRead := by
    refine State.engine_induction (P := fun t => s.Rises t s.allowance ∧ ¬ t.Asks .countersRead)
      ⟨State.rises_of_countedPart rfl, read⟩ ?_
    rintro t r ready ⟨rises, read⟩
    obtain ⟨hr, complete, runs⟩ := State.carryOut_runs ready
    have run := State.rises_runOf (fun command => read ⟨r, hr, complete, command⟩) r t
    exact ⟨rises.trans (run.trans (State.rises_reply _ _ _)), fun asks => read (runs.asks asks)⟩
  exact both.1

theorem State.rises_settle {s : State} (read : ¬ s.Asks .countersRead) : s.Rises s.settle s.allowance :=
  (State.rises_engine read).trans (State.rises_placeNotices _)

theorem exec_rises {c : Instr} {s t : State} (h : exec c s = .next t) (release : ∀ g m, c ≠ .powerOnReset g m)
    (assert : c ≠ .powerOnResetAssert) (read : ¬ s.Asked c .countersRead) :
    s.Rises t (fun _ => s.log.length + 1) := by
  obtain ⟨s', prepared, keeps⟩ := blockEffect_keeps c s
  rcases exec_cases h release assert with same | same | same | same <;> rw [same]
  · exact (State.rises_of_countedPart (s := s) rfl).mono
  · exact blockEffect_rises c s
  · exact (blockEffect_rises c s).trans (State.rises_settle fun asks => read (prepared.asked (keeps.asks asks)))
  · exact ((State.rises_settle fun asks => read (asks.asked c)).trans (State.rises_resendWaiting _)).mono

/-- Settles O51: the command's own change, what its requests ask for, and the counters' rise. -/
theorem configurationChangesOnlyByItsCommand : Obligations.ConfigurationChangesOnlyByItsCommand := by
  refine ⟨fun c s t h release assert => ?_, State.counter_count⟩
  obtain ⟨s', n, prepared, hn, changes⟩ := exec_changesAsked h release assert
  obtain ⟨strapped, mode, timer, reset, pending, -⟩ := prepared.fixed
  obtain ⟨params, identity, managers, epoch⟩ := prepared.settings
  have fixed := changes.fixed
  simp only [State.fixedPart, Prod.mk.injEq] at fixed
  obtain ⟨strapped', mode', timer', reset', pending', logSeq', seq'⟩ := fixed
  refine ⟨strapped'.trans strapped, mode'.trans mode, timer'.trans timer, reset'.trans reset, pending'.trans pending,
    fun no => (changes.params no).trans params, fun no => ?_, fun no => ?_,
    fun no => logSeq'.trans (prepared.logSeq no), seq' ▸ hn, fun no k => ?_⟩
  · obtain ⟨lists, lists'⟩ := changes.lists no
    exact ⟨lists.trans identity, lists'.trans managers⟩
  · obtain ⟨same, active⟩ := changes.table no
    exact ⟨same.trans epoch, by rw [active]; exact prepared.rules, fun loop => active.trans (prepared.active loop)⟩
  · obtain ⟨m, bound, rises⟩ := exec_rises h release assert no k
    exact ⟨m, (Nat.le_add_right _ _).trans bound, rises⟩

end Sys2Proof.Machine
end

section
/-! The table's part in the verdict procedure (R25, R28, R29, R36 to R39). -/

namespace Sys2Proof.Machine

/-! ### Keys (R25) -/

theorem Key.admits_iff (k : Key) (da : Address) :
    k.admits da = true ↔
      (k.group = none ∨ k.group = some da.group) ∧ k.low.toNat ≤ da.member.toNat ∧ da.member.toNat ≤ k.high.toNat :=
  decide_eq_true_iff

/-- Settles O49: the rule's definition, read at its examples. -/
theorem keyMatchesAddress : Obligations.KeyMatchesAddress := by
  refine ⟨Key.admits_iff, fun da => ?_, fun da => ?_, fun k => ?_⟩
  · have := da.member.isLt
    have top : (255 : Byte).toNat = 255 := rfl
    rw [Key.admits_iff, top]
    exact ⟨.inl rfl, Nat.zero_le _, by omega⟩
  · obtain ⟨group, member⟩ := da
    simp only [Key.admits_iff, Address.mk.injEq, reduceCtorEq, false_or, Option.some.injEq]
    rw [eq_comm (a := group), ← BitVec.toNat_inj (x := member), Nat.le_antisymm_iff]
    tauto
  · have top := k.high.isLt
    have low := k.low.isLt
    have members : k.low.toNat ≤ 255 ∧ 255 ≤ k.high.toNat ↔ k.high.toNat = 255 := by omega
    rw [Key.admits_iff, ← BitVec.toNat_inj (x := k.high)]
    exact and_congr_right fun _ => members

/-! ### Step 5 (R28, R36, R37) -/

section
variable {s : State} {h : Header}

theorem State.find_byTable (short : h.declared ≤ 512) (service : s.mode = .service)
    (foreign : some h.sa ∉ s.identity.toList) (near : h.tally.hops < s.params.hopLimit)
    (other : ¬ (h.da = s.strapped ∧ h.kind = 0x02)) : s.find h = s.findByTable h := by
  have foreign := mt (s.isIdentity_iff h.sa).1 foreign
  have other : ¬ (h.da = s.strapped ∧ h.kind = kindManage) := other
  simp [State.find, service, Nat.not_lt.2 short, foreign, Nat.not_le.2 near, other]

theorem State.findByTable_matched {p : Nat} {e : TableEntry} (he : s.active[p]? = some e)
    (admits : e.rule.key.admits h.da = true)
    (first : ∀ j < p, ∀ x, s.active[j]? = some x → x.rule.key.admits h.da = false) :
    s.findByTable h = ⟨e.rule.action.verdict, some p⟩ := by
  unfold State.findByTable
  rw [lookup_eq_some he admits first]
  dsimp only
  rw [he]

theorem State.findByTable_default (no : ∀ e ∈ s.active, e.rule.key.admits h.da = false) :
    s.findByTable h = ⟨s.params.defaultAction.verdict, none⟩ := by
  unfold State.findByTable
  rw [lookup_eq_none no]

theorem State.hitMatched_of_position {p : Nat} {e : TableEntry} (he : s.active[p]? = some e) (v : Verdict) :
    s.hitMatched ⟨v, some p⟩ = { s with active := s.active.set p { e with hits := min (e.hits + 1) 65535 } } := by
  have written : s.active.modify p TableEntry.hit = s.active.set p (TableEntry.hit e) := by
    rw [List.modify_eq_set_getElem?, he]
    rfl
  exact congrArg (fun l => { s with active := l }) written

theorem Take.mark_eq (t : Take) : t.mark = if t = .kept then .claimed else .refused := by
  cases t <;> rfl

/-! ### The verdict acted on (R29, R36 to R39) -/

/-- A matched entry's action. -/
theorem State.judgeHeader_matched {p : Nat} {e : TableEntry} (he : s.active[p]? = some e) (h : Header) :
    let s2 : State := { s with active := s.active.set p { e with hits := min (e.hits + 1) 65535 } }
    let d := s2.reserveDelivery h (some e.rule.label)
    let marks : Option Mark := if e.rule.policy = .quiet then none else some (if d.1 = .kept then .claimed else .refused)
    s.judgeHeader h ⟨e.rule.action.verdict, some p⟩ =
      match e.rule.action with
      | .pass =>
        { s2.reserveTransit h none with
          verdict := some ⟨.pass, some e.rule.label, some e.rule.policy, true, false, none, none⟩ }
      | .copy =>
        { d.2.reserveTransit h marks with
          verdict := some ⟨.copy, some e.rule.label, some e.rule.policy, true, true, some d.1, marks⟩ }
      | .drop =>
        { s2.count .dropped with
          verdict := some ⟨.drop, some e.rule.label, some e.rule.policy, false, false, none, none⟩ } := by
  intro s2 d marks
  have matched : ∀ v, s.matched ⟨v, some p⟩ = some e := fun v => he
  cases e.rule.action with
  | pass =>
    unfold State.judgeHeader
    dsimp only [Action.verdict]
    rw [State.hitMatched_of_position he, matched]
    rfl
  | copy =>
    unfold State.judgeHeader
    dsimp only [Action.verdict]
    rw [State.hitMatched_of_position he, matched]
    have marked : (if e.rule.policy = .quiet then none else some d.1.mark) = marks := by rw [d.1.mark_eq]
    have record : VerdictRecord.copied (some e) d.1 =
        ⟨.copy, some e.rule.label, some e.rule.policy, true, true, some d.1, marks⟩ := by
      rw [← marked]
      simp [VerdictRecord.copied]
    show ({ d.2.reserveTransit h (VerdictRecord.copied (some e) d.1).marks with
      verdict := some (VerdictRecord.copied (some e) d.1) } : State) = _
    rw [record]
  | drop =>
    unfold State.judgeHeader
    dsimp only [Action.verdict]
    rw [State.hitMatched_of_position he, matched]
    rfl

/-- DEFAULT_ACTION. -/
theorem State.judgeHeader_default (s : State) (h : Header) :
    let d := s.reserveDelivery h none
    let mark : Mark := if d.1 = .kept then .claimed else .refused
    s.judgeHeader h ⟨s.params.defaultAction.verdict, none⟩ =
      match s.params.defaultAction with
      | .pass => { s.reserveTransit h none with verdict := some ⟨.pass, none, none, true, false, none, none⟩ }
      | .copy =>
        { d.2.reserveTransit h (some mark) with
          verdict := some ⟨.copy, none, none, true, true, some d.1, some mark⟩ }
      | .drop => { s.count .dropped with verdict := some ⟨.drop, none, none, false, false, none, none⟩ } := by
  intro d mark
  cases s.params.defaultAction with
  | pass => rfl
  | copy =>
    have marked : d.1.mark = mark := d.1.mark_eq
    rw [← marked]
    rfl
  | drop => rfl

end

/-- Settles O10: the finding of step 5, by the first match or by DEFAULT_ACTION, acted on. -/
theorem headerVerdictByTable : Obligations.HeaderVerdictByTable := by
  intro v rest times f s hr hf last
  dsimp only
  rw [exec_loopOctet_of_last hr hf last]
  generalize Header.ofOctets 0 (f.head ++ [v]) = h
  obtain ⟨transit, times_eq⟩ := s.octetTimes_frame times
  simp only [times_eq, State.headerComplete]
  intro short service foreign near other
  rw [State.find_of_frame, State.find_byTable short service foreign near other]
  refine ⟨fun p e he admits first => ?_, fun no => ?_⟩
  · rw [State.findByTable_matched he admits first]
    exact congrArg (fun t : State => Host.Outcome.next t.settle)
      (State.judgeHeader_matched (s := { s with transit := transit, rx := _ }) he h)
  · rw [State.findByTable_default no]
    exact congrArg (fun t : State => Host.Outcome.next t.settle) (State.judgeHeader_default _ h)

end Sys2Proof.Machine
end

section
/-! Commands that read and edit the tables (R150, R161, R164, R165). -/

namespace Sys2Proof.Machine

/-! ### Records of a window of positions (R150, 11.4) -/

/-- The positions asked for, as an interval. -/
theorem filter_window_range (n first count : Nat) (inside : first ≤ n) :
    (List.range n).filter (fun p => decide (first ≤ p ∧ p < first + count)) =
      List.range' first (min count (n - first)) := by
  refine List.Pairwise.eq_of_mem_iff (r := (· < ·)) (List.pairwise_lt_range.filter _) List.pairwise_lt_range' fun p => ?_
  simp only [List.mem_filter, List.mem_range, List.mem_range'_1, decide_eq_true_eq]
  omega

/-- What the positions of `l` from `first` on hold, `window`, one after another. -/
theorem flatMap_positions {α β : Type} (l window : List α) (first : Nat) (record : Nat → α → List β)
    (holds : ∀ i < window.length, l[first + i]? = window[i]?) :
    (List.range' first window.length).flatMap (fun p => (l[p]?).elim [] (record p)) =
      (window.zipIdx first).flatMap (fun x => record x.2 x.1) := by
  induction window generalizing first with
  | nil => rfl
  | cons a window ih =>
    have head : l[first]? = some a := holds 0 (Nat.zero_lt_succ _)
    have tail := ih (first + 1) fun i hi => by
      rw [Nat.add_assoc, Nat.add_comm 1 i]
      exact holds (i + 1) (Nat.succ_lt_succ hi)
    rw [List.length_cons, List.range'_succ, List.flatMap_cons, List.zipIdx_cons, List.flatMap_cons, tail, head]
    rfl

theorem flatMap_window {α β : Type} (l : List α) (first count : Nat) (inside : first ≤ l.length)
    (record : Nat → α → List β) :
    ((List.range l.length).filter (fun p => decide (first ≤ p ∧ p < first + count))).flatMap
        (fun p => (l[p]?).elim [] (record p)) =
      (((l.drop first).take count).zipIdx first).flatMap (fun x => record x.2 x.1) := by
  have length : ((l.drop first).take count).length = min count (l.length - first) := by simp
  rw [filter_window_range _ _ _ inside, ← length]
  refine flatMap_positions l _ first record fun i hi => ?_
  rw [List.getElem?_take_of_lt (by omega), List.getElem?_drop]

theorem activeRecords_eq (position : Nat) (l : List TableEntry) :
    activeRecords position l = (l.zipIdx position).flatMap (fun x => entryRecord x.2 x.1.rule x.1.hits none) := by
  induction l generalizing position with
  | nil => rfl
  | cons e es ih => rw [activeRecords, ih, List.zipIdx_cons, List.flatMap_cons]

theorem stagedRecords_eq (active : List TableEntry) (position : Nat) (l : List StagedEntry) :
    stagedRecords active position l =
      (l.zipIdx position).flatMap (fun x => entryRecord x.2 x.1.rule (hitsOfOrigin active x.1.origin) x.1.origin) := by
  induction l generalizing position with
  | nil => rfl
  | cons e es ih => rw [stagedRecords, ih, List.zipIdx_cons, List.flatMap_cons]

theorem activeRecords_window (l : List TableEntry) (first count : Nat) (inside : first ≤ l.length) :
    activeRecords first ((l.drop first).take count) =
      ((List.range l.length).filter (fun p => decide (first ≤ p ∧ p < first + count))).flatMap
        (fun p => (l[p]?).elim [] (fun e => oct p :: (e.rule.octets ++ be16 e.hits ++ [0xFF]))) := by
  rw [activeRecords_eq, flatMap_window l first count inside (fun p e => oct p :: (e.rule.octets ++ be16 e.hits ++ [0xFF]))]
  rfl

theorem stagedRecords_window (active : List TableEntry) (l : List StagedEntry) (first count : Nat)
    (inside : first ≤ l.length) :
    stagedRecords active first ((l.drop first).take count) =
      ((List.range l.length).filter (fun p => decide (first ≤ p ∧ p < first + count))).flatMap
        (fun p => (l[p]?).elim [] (fun e =>
          oct p :: (e.rule.octets ++
            be16 (e.origin.elim 0 (fun o => ((active[o]?).map (fun e => e.hits)).getD 0)) ++ [e.origin.elim 0xFF oct]))) := by
  have record : ∀ (p : Nat) (e : StagedEntry), entryRecord p e.rule (hitsOfOrigin active e.origin) e.origin =
      oct p :: (e.rule.octets ++
        be16 (e.origin.elim 0 (fun o => ((active[o]?).map (fun e => e.hits)).getD 0)) ++ [e.origin.elim 0xFF oct]) := by
    intro p e
    cases e.origin <;> rfl
  simp only [stagedRecords_eq, ← record]
  exact (flatMap_window l first count inside
    (fun p e => entryRecord p e.rule (hitsOfOrigin active e.origin) e.origin)).symm

/-! ### TABLE READ (R150) -/

/-- TABLE READ's effect is its answer alone. -/
theorem State.Serves.tableRead {s : State} {r : Request} {t first count : Byte} {rest : List Byte}
    (h : s.Serves r 0x06 (t :: first :: count :: rest)) {a : Answer} (run : State.runTableRead r s = (s, a)) :
    exec .tableRead s = .next (s.reply r a).settle := by
  have served := h.command .tableRead rfl State.runTableRead
  rwa [run] at served

section
variable {s : State} {r : Request} {t first count : Byte} {rest : List Byte}

theorem State.runTableRead_bad (operands : r.operands = t :: first :: count :: rest)
    (bad : 1 < t.toNat ∨ 48 < first.toNat ∨ count.toNat < 1 ∨ 32 < count.toNat) :
    State.runTableRead r s = (s, ⟨.badOperand, []⟩) := by
  unfold State.runTableRead
  rw [operands]
  dsimp only
  split
  · rename_i name named
    have range : ¬ (first.toNat ≤ Config.tableEntries ∧ inRange 1 32 count.toNat = true) := by
      have low : ¬ 1 < t.toNat := by
        unfold TableName.ofOctet at named
        split at named
        · simp_all
        · split at named
          · simp_all
          · cases named
      rw [inRange_iff]
      have entries : Config.tableEntries = 48 := rfl
      omega
    rw [if_neg range]
    rfl
  · rfl

theorem State.runTableRead_good (operands : r.operands = t :: first :: count :: rest) {name : TableName}
    (named : TableName.ofOctet t = some name)
    (good : ¬ (1 < t.toNat ∨ 48 < first.toNat ∨ count.toNat < 1 ∨ 32 < count.toNat)) :
    State.runTableRead r s = (s, s.readTable name first.toNat count.toNat) := by
  have entries : Config.tableEntries = 48 := rfl
  unfold State.runTableRead
  rw [operands]
  dsimp only
  rw [named]
  dsimp only
  rw [if_pos (by rw [inRange_iff]; omega)]

end

/-- Settles O40: the checks, then the window of records. -/
theorem tableReadAnswersEntries : Obligations.TableReadAnswersEntries := by
  intro s r t first count rest serves
  dsimp only
  have operands := serves.operands
  have round : oct first.toNat = first := BitVec.ofNat_toNat _ _
  refine ⟨fun bad => serves.tableRead (State.runTableRead_bad operands bad), ?_, ?_, ?_⟩
  · rintro good rfl
    refine ⟨fun beyond => serves.tableRead ?_, fun inside => serves.tableRead ?_⟩
    · rw [State.runTableRead_good operands rfl good, State.readTable, if_pos beyond]
      rfl
    · rw [State.runTableRead_good operands rfl good, State.readTable, if_neg (Nat.not_lt.2 inside),
        activeRecords_window _ _ _ inside, round]
      rfl
  · rintro good rfl closed
    refine serves.tableRead ?_
    rw [State.runTableRead_good operands rfl good, State.readTable, closed]
    rfl
  · rintro x good rfl opened
    refine ⟨fun beyond => serves.tableRead ?_, fun inside => serves.tableRead ?_⟩
    · rw [State.runTableRead_good operands rfl good, State.readTable, opened]
      dsimp only
      rw [if_pos beyond]
      rfl
    · rw [State.runTableRead_good operands rfl good, State.readTable, opened]
      dsimp only
      rw [if_neg (Nat.not_lt.2 inside), stagedRecords_window _ _ _ _ inside, round]
      rfl

/-! ### ENTRY REPLACE and ENTRY REMOVE (R161, R164, R165) -/

/-- The owner's command runs over the refreshed deadline. -/
theorem State.asOwner_of_owner {s : State} {who : Requester} {x : Session} (authorized : s.authorized who = true)
    (hx : s.session = some x) (owner : x.owner = who.owner) (run : Session → State → State × Answer) :
    s.asOwner who run =
      run { x with lastCommand := s.timer } { s with session := some { x with lastCommand := s.timer } } := by
  unfold State.asOwner State.ifAuthorized
  rw [if_pos authorized, hx]
  exact if_pos owner

theorem State.replaceEntry_beyond {x : Session} {position : Nat} (beyond : x.staged.length ≤ position) (s : State)
    (rule : Rule) : s.replaceEntry x position (some rule) = (s, ⟨.noEntry, []⟩) := if_pos beyond

section
variable {x : Session} {position : Nat} (inside : position < x.staged.length) (s : State) {rule : Rule}
include inside

theorem State.replaceEntry_duplicate
    (held : ∃ (i : Nat) (e : StagedEntry), i ≠ position ∧ x.staged[i]? = some e ∧ e.rule.key = rule.key) :
    s.replaceEntry x position (some rule) = (s, ⟨.duplicate, []⟩) := by
  have duplicate : duplicates x.staged (some position) rule.key = true := by simpa [duplicates_iff] using held
  unfold State.replaceEntry
  dsimp only
  rw [if_neg (Nat.not_le.2 inside), if_pos duplicate]
  rfl

theorem State.replaceEntry_new
    (new : ∀ (i : Nat) (e : StagedEntry), i ≠ position → x.staged[i]? = some e → e.rule.key ≠ rule.key) :
    s.replaceEntry x position (some rule) =
      ({ s with session := some { x with
          staged := x.staged.take position ++ ⟨rule, none⟩ :: x.staged.drop (position + 1) } },
        ⟨.done, [oct x.staged.length]⟩) := by
  have single : ¬ duplicates x.staged (some position) rule.key = true := by
    rw [duplicates_iff]
    rintro ⟨i, e, other, he, same⟩
    exact new i e (by simpa using other) he same
  unfold State.replaceEntry
  dsimp only
  rw [if_neg (Nat.not_le.2 inside), if_neg single, State.edited, List.length_set, List.set_eq_take_append_cons_drop,
    if_pos inside]
  rfl

theorem State.removeEntry_inside :
    s.removeEntry x position =
      ({ s with session := some { x with staged := x.staged.take position ++ x.staged.drop (position + 1) } },
        ⟨.done, [oct (x.staged.length - 1)]⟩) := by
  unfold State.removeEntry
  rw [if_neg (Nat.not_le.2 inside), State.edited, List.length_eraseIdx_of_lt inside, List.eraseIdx_eq_take_drop_succ]
  rfl

end

/-- Settles O44: checks S3, S5 and S6, then the edit. -/
theorem entryReplaceAndRemove : Obligations.EntryReplaceAndRemove := by
  intro s r x p authorized hx owner
  have runs := State.asOwner_of_owner authorized hx owner
  dsimp only
  refine ⟨fun form g low high act pol label h1 h2 rest serves => ?_, fun rest serves => ?_⟩
  · have replaced : ∀ {u : State} {a : Answer},
        State.replaceEntry { s with session := some { x with lastCommand := s.timer } } { x with lastCommand := s.timer }
          p.toNat (readRule form g low high act pol label) = (u, a) →
        exec .entryReplace s = .next (u.reply r a).settle := by
      intro u a edit
      have served := serves.command .entryReplace rfl State.runEntryReplace
      have run : State.runEntryReplace r s = (u, a) := by
        unfold State.runEntryReplace
        rw [serves.operands]
        exact (runs _).trans edit
      rwa [run] at served
    refine ⟨fun bad => replaced ?_, fun good beyond => replaced ?_,
      fun rule formed group lowed highed acted poled labeled range inside =>
        ⟨fun held => replaced ?_, fun new => replaced ?_⟩⟩
    · rw [(readRule_eq_none form g low high act pol label).2 bad]
      rfl
    · obtain ⟨rule, read⟩ := Option.ne_none_iff_exists'.1 (mt (readRule_eq_none form g low high act pol label).1 good)
      rw [read]
      exact State.replaceEntry_beyond (x := { x with lastCommand := s.timer }) beyond _ rule
    all_goals
      have read : readRule form g low high act pol label = some rule := by
        have policy : pol = rule.policy.octet := by
          rw [poled]
          cases rule.policy <;> rfl
        subst formed lowed highed acted labeled
        rw [policy]
        exact readRule_octets rule g group range
      rw [read]
    · exact State.replaceEntry_duplicate (x := { x with lastCommand := s.timer }) inside _ held
    · exact State.replaceEntry_new (x := { x with lastCommand := s.timer }) inside _ new
  · have removed : ∀ {u : State} {a : Answer},
        State.removeEntry { s with session := some { x with lastCommand := s.timer } } { x with lastCommand := s.timer }
          p.toNat = (u, a) →
        exec .entryRemove s = .next (u.reply r a).settle := by
      intro u a edit
      have served := serves.command .entryRemove rfl State.runEntryRemove
      have run : State.runEntryRemove r s = (u, a) := by
        unfold State.runEntryRemove
        rw [serves.operands]
        exact (runs _).trans edit
      rwa [run] at served
    exact ⟨fun beyond => removed (if_pos beyond), fun inside =>
      removed (State.removeEntry_inside (x := { x with lastCommand := s.timer }) inside _)⟩

end Sys2Proof.Machine
end

section
/-! A whole frame passed through the part (R37, R47, R49 to R52, R56): what the state is between two of its octets, and what
each octet and the closing flag make of that. -/

namespace Sys2Proof.Machine

theorem runs_append (a b : List Instr) (s : State) : runs (a ++ b) s = (runs a s).bind (runs b) := by
  induction a generalizing s with
  | nil => rfl
  | cons c a ih =>
    rw [List.cons_append, runs, runs]
    cases exec c s with
    | next t => exact ih t
    | _ => rfl

/-- An octet as a command, with its bits beyond and its octet times. -/
def octetCommand (o : Byte × List Bool × Nat) : Instr := .loopOctet o.1 o.2.1 o.2.2

/-! ### The receiver's frame -/

section
variable {lead : Nat}

theorem RxFrame.push_count (f : RxFrame) (v : Byte) : (f.push lead v).count = f.count + 1 := by
  unfold RxFrame.push
  split
  · rfl
  · split <;> rfl

theorem RxFrame.push_declared {f : RxFrame} (after : lead + 8 ≤ f.count) (v : Byte) :
    (f.push lead v).declared = f.declared := by
  unfold RxFrame.push
  rw [if_neg (Nat.not_lt.2 after)]
  split <;> rfl

theorem RxFrame.foldl_push_count (octets : List Byte) (f : RxFrame) :
    (octets.foldl (RxFrame.push lead) f).count = f.count + octets.length := by
  induction octets generalizing f with
  | nil => rfl
  | cons v octets ih => rw [List.foldl_cons, ih, RxFrame.push_count, List.length_cons, Nat.add_assoc, Nat.add_comm 1]

theorem RxFrame.foldl_push_length {f : RxFrame} (after : lead + 8 ≤ f.count) (octets : List Byte) :
    (octets.foldl (RxFrame.push lead) f).length = f.length := by
  induction octets generalizing f with
  | nil => rfl
  | cons v octets ih =>
    rw [List.foldl_cons, ih (by rw [RxFrame.push_count]; omega), RxFrame.length, RxFrame.push_declared after]
    rfl

end

/-- The receiver's state after these octets of a frame, before its header is complete. -/
def collected : List Byte → RxState
  | [] => .fill
  | v :: octets => .frame ((v :: octets).foldl (RxFrame.push 0) RxFrame.empty)

theorem RxFrame.foldl_push_collected (past : List Byte) (early : past.length < 8) :
    past.foldl (RxFrame.push 0) RxFrame.empty =
      { RxFrame.empty with count := past.length, fcs := past.foldl fcsOctet RxFrame.empty.fcs, head := past } := by
  rw [RxFrame.foldl_push_of_header past (by simpa [RxFrame.empty] using early)]
  simp [RxFrame.empty]

/-- The receiver's frame at the eighth octet of header `h`. -/
def headerFrame (h : Header) : RxFrame := h.octets.foldl (RxFrame.push 0) RxFrame.empty

theorem Header.octets_length (h : Header) : h.octets.length = 8 := rfl

theorem headerFrame_count (h : Header) : (headerFrame h).count = 8 := RxFrame.foldl_push_count _ _

theorem headerFrame_length {h : Header} (declared : h.declared ≤ 65535) : (headerFrame h).length = h.declared := by
  rw [headerFrame, RxFrame.foldl_push_of_whole_header (lead := 0) rfl]
  exact num16_be16 declared

/-! ### The transit queue up to the octets sent -/

/-- The entry but for how much of it has been sent. -/
def TransitEntry.unsent (e : TransitEntry) : TransitEntry := { e with sent := 0 }

theorem TransitEntry.sendOctet_unsent (e : TransitEntry) : e.sendOctet.unsent = e.unsent := by
  unfold TransitEntry.sendOctet
  split <;> rfl

theorem TransitEntry.sendOctet_of_no {e : TransitEntry} (no : e.sending = .no) : e.sendOctet = e := by
  unfold TransitEntry.sendOctet
  rw [if_neg (by simp [no])]

section
variable {l m : List TransitEntry} (h : l.map TransitEntry.unsent = m.map TransitEntry.unsent)
include h

theorem length_of_unsent : l.length = m.length := by simpa using congrArg List.length h

theorem reservations_of_unsent : l.map (fun e => e.reservation) = m.map (fun e => e.reservation) := by
  have reserved := congrArg (List.map (fun e : TransitEntry => e.reservation)) h
  rwa [List.map_map, List.map_map] at reserved

end

/-- `t` is `s` while a frame goes through it: nothing is counted, no head becomes ready, and the transit queue is that of `s`
up to the octets sent, then `new`. -/
structure State.Carries (s : State) (new : List TransitEntry) (t : State) : Prop where
  released : t.resetAsserted = false
  ready : t.readyHead = none
  counters : t.counters = s.counters
  setup : (t.mode, t.strapped, t.identity, t.active, t.params) = (s.mode, s.strapped, s.identity, s.active, s.params)
  transit : ∃ older, t.transit = older ++ new ∧ older.map TransitEntry.unsent = s.transit.map TransitEntry.unsent

section
variable {s t : State} {new : List TransitEntry} (h : s.Carries new t)
include h

theorem State.Carries.of_rx (rx : LoopRx) : s.Carries new { t with rx := rx } := { h with }

/-- Octet times send only what may be sent, which no new entry is. -/
theorem State.Carries.octetTime (no : ∀ e ∈ new, e.sending = .no) : s.Carries new t.octetTime := by
  obtain ⟨older, transit, same⟩ := h.transit
  unfold State.octetTime
  split
  · rename_i e es _ ht
    refine { h with transit := ?_ }
    cases older with
    | nil =>
      have head : new = e :: es := transit.symm.trans ht
      have unsent : e.sendOctet = e := TransitEntry.sendOctet_of_no (no e (head ▸ List.mem_cons_self))
      exact ⟨[], by rw [unsent, ← transit, ht], same⟩
    | cons x older =>
      obtain ⟨rfl, rfl⟩ := List.cons.inj (transit.symm.trans ht)
      exact ⟨x.sendOctet :: older, rfl, by simpa [TransitEntry.sendOctet_unsent] using same⟩
  · exact h

theorem State.Carries.octetTimes (no : ∀ e ∈ new, e.sending = .no) (n : Nat) : s.Carries new (t.octetTimes n) := by
  induction n generalizing t with
  | zero => exact h
  | succ n ih => exact ih (h.octetTime no)

/-- The end of the event only places notices. -/
theorem State.Carries.settle : s.Carries new t.settle ∧ t.settle.rx = t.rx ∧ t.settle.verdict = t.verdict := by
  rw [State.settle_of_none h.ready]
  have ready := State.placeNotices_readyHead h.ready
  obtain ⟨own, slots, noticeSeq, placed⟩ := t.placeNotices_frame
  rw [placed] at ready ⊢
  exact ⟨{ h with ready := ready }, rfl, rfl⟩

end

/-- A state that an octet or the flag makes, and its event. -/
theorem State.Carries.exec {s t u : State} {new : List TransitEntry} {c : Instr} (effect : exec c t = .next u.settle)
    (h : s.Carries new u) :
    ∃ w, Machine.exec c t = .next w ∧ s.Carries new w ∧ w.rx = u.rx ∧ w.verdict = u.verdict :=
  ⟨u.settle, effect, h.settle⟩

/-! ### The header's octets -/

/-- These octets of a frame, fewer than its header, have come in. -/
structure State.Collects (s : State) (past : List Byte) (t : State) : Prop where
  carries : s.Carries [] t
  rx : t.rx.state = collected past

theorem State.Collects.octet {s t : State} {past : List Byte} (h : s.Collects past t) (o : Byte × List Bool × Nat)
    (early : past.length < 7) : ∃ u, exec (octetCommand o) t = .next u ∧ s.Collects (past ++ [o.1]) u := by
  obtain ⟨v, rest, times⟩ := o
  have timed := h.carries.octetTimes (by simp) times
  have rx : (t.octetTimes times).rx.state = collected past := by rw [State.octetTimes_rx, h.rx]
  have effect : (t.octetTimes times).loopOctet v rest =
      { t.octetTimes times with rx := ⟨collected (past ++ [v]), 0, rest⟩ } := by
    cases past with
    | nil => exact State.loopOctet_of_fill rx v rest
    | cons w past =>
      have count := RxFrame.foldl_push_count (lead := 0) (w :: past) RxFrame.empty
      rw [State.loopOctet_of_header rx v rest (by rw [count]; simpa [RxFrame.empty] using early)]
      simp [collected]
  obtain ⟨u, run, carries, same, -⟩ :=
    (effect ▸ timed.of_rx _ : s.Carries [] ((t.octetTimes times).loopOctet v rest)).exec
      (exec_loopOctet h.carries.released v rest times)
  exact ⟨u, run, carries, by rw [same, effect]⟩

theorem State.Collects.octets {s : State} (os : List (Byte × List Bool × Nat)) {t : State} {past : List Byte}
    (h : s.Collects past t) (early : past.length + os.length ≤ 7) :
    ∃ u, runs (os.map octetCommand) t = some u ∧ s.Collects (past ++ os.map Prod.fst) u := by
  induction os generalizing t past with
  | nil => exact ⟨t, rfl, by simpa using h⟩
  | cons o os ih =>
    rw [List.length_cons] at early
    obtain ⟨u, run, next⟩ := h.octet o (by omega)
    obtain ⟨w, runs', last⟩ := ih next (by simp; omega)
    refine ⟨w, ?_, by simpa using last⟩
    rw [List.map_cons, runs, run]
    exact runs'

/-! ### The octets after it -/

/-- The entry of the frame passed, after these octets of its information field. -/
def passedEntry (h : Header) (info : List Byte) : TransitEntry :=
  info.foldl (fun e v => e.takeOctet v) (TransitEntry.start h none)

theorem passedEntry_append (h : Header) (info : List Byte) (v : Byte) :
    passedEntry h (info ++ [v]) = (passedEntry h info).takeOctet v := by
  simp [passedEntry]

/-- Taking octets in leaves all but the information field and its two figures. -/
theorem passedEntry_eq (h : Header) (info : List Byte) :
    ∃ received released, passedEntry h info =
      { TransitEntry.start h none with info := info, received := received, released := released } := by
  induction info using List.reverseRecOn with
  | nil => exact ⟨_, _, rfl⟩
  | append_singleton info v ih =>
    obtain ⟨received, released, eq⟩ := ih
    rw [passedEntry_append, eq]
    exact ⟨_, _, rfl⟩

theorem passedEntry_sending (h : Header) (info : List Byte) : (passedEntry h info).sending = .no := by
  obtain ⟨_, _, eq⟩ := passedEntry_eq h info
  rw [eq]
  rfl

theorem passedEntry_status (h : Header) (info : List Byte) : (passedEntry h info).status = .arriving := by
  obtain ⟨_, _, eq⟩ := passedEntry_eq h info
  rw [eq]
  rfl

/-- The header has come in and is passed, and after it these octets. -/
structure State.Passes (s : State) (h : Header) (past : List Byte) (t : State) : Prop where
  carries : s.Carries [passedEntry h (past.take h.declared)] t
  rx : t.rx.state = .frame (past.foldl (RxFrame.push 0) (headerFrame h))
  verdict : t.verdict = some (.passed none)

theorem State.Passes.octetTimes {s t : State} {h : Header} {past : List Byte} (p : s.Passes h past t) (n : Nat) :
    s.Passes h past (t.octetTimes n) := by
  refine ⟨p.carries.octetTimes (by simp [passedEntry_sending]) n, by rw [State.octetTimes_rx, p.rx], ?_⟩
  obtain ⟨_, timed⟩ := t.octetTimes_frame n
  rw [timed]
  exact p.verdict

/-- An information octet joins the newest entry of a frame passed. -/
theorem State.infoOctet_of_passed {t : State} {older : List TransitEntry} {e : TransitEntry}
    (verdict : t.verdict = some (.passed none)) (transit : t.transit = older ++ [e]) (arriving : e.status = .arriving)
    (rx : LoopRx) (v : Byte) :
    ({ t with rx := rx } : State).infoOctet v = { t with rx := rx, transit := older ++ [e.takeOctet v] } := by
  have taken : modifyLast TransitEntry.arriving (TransitEntry.takeOctet v) (older ++ [e]) = older ++ [e.takeOctet v] := by
    rw [modifyLast_append, if_pos (by simp [TransitEntry.arriving, arriving])]
  rw [State.infoOctet_eq]
  simp only [verdict, transit, ← taken]
  rfl

section
variable {s t : State} {h : Header} {past : List Byte} (p : s.Passes h past t) (declared : h.declared ≤ 65535)
include p declared

/-- What an octet brings, before the end of its event. -/
theorem State.Passes.loopOctet (v : Byte) (rest : List Bool) (room : past.length < h.declared + 2) :
    s.Passes h (past ++ [v]) (t.loopOctet v rest) := by
  have count : (past.foldl (RxFrame.push 0) (headerFrame h)).count = 8 + past.length := by
    rw [RxFrame.foldl_push_count, headerFrame_count]
  have length : (past.foldl (RxFrame.push 0) (headerFrame h)).length = h.declared := by
    rw [RxFrame.foldl_push_length (by rw [headerFrame_count]), headerFrame_length declared]
  have pushed : (past.foldl (RxFrame.push 0) (headerFrame h)).push 0 v =
      (past ++ [v]).foldl (RxFrame.push 0) (headerFrame h) := by simp
  rcases Nat.lt_or_ge past.length h.declared with info | check
  · obtain ⟨older, transit, same⟩ := p.carries.transit
    have whole : past.take h.declared = past := List.take_of_length_le (by omega)
    have whole' : (past ++ [v]).take h.declared = past ++ [v] := List.take_of_length_le (by simp; omega)
    rw [whole] at transit
    rw [State.loopOctet_of_info p.rx v rest (by omega) (by omega), pushed,
      State.infoOctet_of_passed p.verdict transit (passedEntry_status h past)]
    refine ⟨?_, rfl, p.verdict⟩
    rw [whole', passedEntry_append]
    exact { p.carries with transit := ⟨older, rfl, same⟩ }
  · have taken : (past ++ [v]).take h.declared = past.take h.declared := List.take_append_of_le_length check
    rw [State.loopOctet_of_check p.rx v rest (by omega) (by omega), pushed]
    exact ⟨by rw [taken]; exact p.carries.of_rx _, rfl, p.verdict⟩

theorem State.Passes.octet (o : Byte × List Bool × Nat) (room : past.length < h.declared + 2) :
    ∃ u, exec (octetCommand o) t = .next u ∧ s.Passes h (past ++ [o.1]) u := by
  obtain ⟨v, rest, times⟩ := o
  have next := (p.octetTimes times).loopOctet declared v rest room
  obtain ⟨u, run, carries, rx, verdict⟩ := next.carries.exec (exec_loopOctet p.carries.released v rest times)
  exact ⟨u, run, carries, by rw [rx, next.rx], by rw [verdict, next.verdict]⟩

end

theorem State.Passes.octets {s : State} {h : Header} (declared : h.declared ≤ 65535)
    (os : List (Byte × List Bool × Nat)) {t : State} {past : List Byte} (p : s.Passes h past t)
    (room : past.length + os.length ≤ h.declared + 2) :
    ∃ u, runs (os.map octetCommand) t = some u ∧ s.Passes h (past ++ os.map Prod.fst) u := by
  induction os generalizing t past with
  | nil => exact ⟨t, rfl, by simpa using p⟩
  | cons o os ih =>
    rw [List.length_cons] at room
    obtain ⟨u, run, next⟩ := p.octet declared o (by omega)
    obtain ⟨w, runs', last⟩ := ih next (by simp; omega)
    refine ⟨w, ?_, by simpa using last⟩
    rw [List.map_cons, runs, run]
    exact runs'

/-! ### The eighth octet and the flag -/

/-- The table leaves the frame to DEFAULT_ACTION, which passes it, and the transit store has room for it. -/
structure State.WouldPass (s : State) (h : Header) : Prop where
  short : h.declared ≤ 512
  service : s.mode = .service
  foreign : some h.sa ∉ s.identity.toList
  near : h.tally.hops < s.params.hopLimit
  other : ¬ (h.da = s.strapped ∧ h.kind = 0x02)
  unmatched : ∀ e ∈ s.active, e.rule.key.admits h.da = false
  passed : s.params.defaultAction = .pass
  places : s.transit.length < 6
  store : (s.transit.map (fun e => e.reservation)).sum + (8 + h.declared) ≤ 1280

theorem State.headerComplete_of_wouldPass {s t : State} {h : Header} (w : s.WouldPass h) (c : s.Carries [] t) :
    t.headerComplete h =
      { t with transit := t.transit ++ [TransitEntry.start h none], verdict := some (.passed none) } := by
  have setup := c.setup
  simp only [Prod.mk.injEq] at setup
  obtain ⟨mode, strapped, identity, active, params⟩ := setup
  obtain ⟨older, transit, same⟩ := c.transit
  rw [List.append_nil] at transit
  have found : t.find h = ⟨.pass, none⟩ := by
    rw [State.find_byTable w.short (mode ▸ w.service) (identity ▸ w.foreign) (params ▸ w.near) (strapped ▸ w.other),
      State.findByTable_default (active ▸ w.unmatched), params, w.passed]
    rfl
  have room : t.transitRoom h.declared = true := by
    have places := length_of_unsent same
    have store := reservations_of_unsent same
    have := w.places
    have := w.store
    simp only [State.transitRoom, State.transitReserved, transit, store, places, decide_eq_true_eq, Config.transitEntries,
      Config.transitStore]
    omega
  have reserved : t.reserveTransit h none = { t with transit := t.transit ++ [TransitEntry.start h none] } := if_pos room
  show t.judgeHeader h (t.find h) = _
  rw [found]
  show ({ t.reserveTransit h none with verdict := some (.passed none) } : State) = _
  rw [reserved]

theorem State.Collects.eighth {s t : State} {h : Header} {past : List Byte} (w : s.WouldPass h)
    (hops : h.tally.hops ≤ 63) (c : s.Collects past t) (o : Byte × List Bool × Nat) (whole : past ++ [o.1] = h.octets) :
    ∃ u, exec (octetCommand o) t = .next u ∧ s.Passes h [] u := by
  obtain ⟨v, rest, times⟩ := o
  have short := w.short
  have last : past.length = 7 := by simpa [h.octets_length] using congrArg List.length whole
  have header : Header.ofOctets 0 (past ++ [v]) = h := by rw [whole, Header.ofOctets_octets hops (by omega)]
  have pushed : (past.foldl (RxFrame.push 0) RxFrame.empty).push 0 v = headerFrame h := by
    rw [headerFrame, ← whole, List.foldl_append]
    rfl
  have head : (past.foldl (RxFrame.push 0) RxFrame.empty).head = past := by
    rw [RxFrame.foldl_push_collected past (by omega)]
  have timed := c.carries.octetTimes (by simp) times
  have rx : (t.octetTimes times).rx.state = .frame (past.foldl (RxFrame.push 0) RxFrame.empty) := by
    rw [State.octetTimes_rx, c.rx]
    cases past with
    | nil => cases last
    | cons _ _ => rfl
  have effect : (t.octetTimes times).loopOctet v rest =
      { t.octetTimes times with
        rx := ⟨.frame (headerFrame h), 0, rest⟩
        transit := (t.octetTimes times).transit ++ [passedEntry h []]
        verdict := some (.passed none) } := by
    rw [State.loopOctet_of_last rx v rest (by rw [RxFrame.foldl_push_count]; simpa [RxFrame.empty] using last), head, header,
      pushed, State.headerComplete_of_wouldPass w (timed.of_rx _)]
    rfl
  obtain ⟨older, transit, same⟩ := timed.transit
  rw [List.append_nil] at transit
  have carries : s.Carries [passedEntry h []] ((t.octetTimes times).loopOctet v rest) := by
    rw [effect]
    exact { timed with transit := ⟨older, by rw [transit], same⟩ }
  obtain ⟨u, run, carries, rx, verdict⟩ := carries.exec (exec_loopOctet c.carries.released v rest times)
  exact ⟨u, run, by rwa [List.take_nil], by rw [rx, effect]; rfl, by rw [verdict, effect]⟩

/-- The supervisor's part of a flag: its own fields, and LINE_UP raised or not (R17, R19). -/
theorem State.superviseFlag_frame (s : State) (c : Option EndCond) :
    ∃ sup slots reports, s.superviseFlag c = { s with sup := sup, slots := slots, reports := reports } := by
  unfold State.superviseFlag
  dsimp only
  split <;> exact ⟨_, _, _, rfl⟩

theorem State.frameEnd_good_of_passed {t : State} {older : List TransitEntry} {e : TransitEntry}
    (verdict : t.verdict = some (.passed none)) (transit : t.transit = older ++ [e]) (arriving : e.status = .arriving)
    (sending : e.sending = .no) :
    t.frameEnd .good = { t with transit := older ++ [e.finish], verdict := none } := by
  have ended : t.endTransit true = { t with transit := older ++ [e.finish] } := by
    rw [State.endTransit_of_arriving transit arriving]
    simp [sending]
  have blocks : t.endBlocks true = t.endTransit true := by
    unfold State.endBlocks
    rw [verdict]
    rfl
  show ({ t.endBlocks true with verdict := none } : State) = _
  rw [blocks, ended]

/-- The frame whole at its flag is GOOD. -/
theorem judge_wholeFrame {h : Header} {info : List Byte} (declared : h.declared = info.length)
    (short : h.declared ≤ 65535) :
    ((info ++ fcsField (h.octets ++ info)).foldl (RxFrame.push 0) (headerFrame h)).judge 0 false = .good := by
  have received := RxFrame.foldl_push_loopFrame declared (declared ▸ short)
  have split : loopFrame h info = h.octets ++ (info ++ fcsField (h.octets ++ info)) := List.append_assoc _ _ _
  rw [split, List.foldl_append] at received
  rw [headerFrame, received, RxFrame.judge_eq_good_iff]
  exact ⟨rfl, by simp only; omega, by simp [RxFrame.length], fcsGood_of_fcsField rfl rfl⟩

theorem State.Passes.flag {s t : State} {h : Header} {info : List Byte} (declared : h.declared = info.length)
    (short : h.declared ≤ 65535) (p : s.Passes h (info ++ fcsField (h.octets ++ info)) t) (times : Nat) :
    ∃ u, exec (.loopFlag [] times) t = .next u ∧ s.Carries [(passedEntry h info).finish] u ∧
      u.rx = ⟨.fill, 0, []⟩ ∧ u.verdict = none := by
  have timed := p.octetTimes times
  obtain ⟨older, transit, same⟩ := timed.carries.transit
  rw [declared, List.take_left] at transit
  have ended := State.frameEnd_good_of_passed timed.verdict transit (passedEntry_status h info) (passedEntry_sending h info)
  have effect := State.loopFlag_of_frame timed.rx []
  rw [show decide (([] : List Bool) ≠ []) = false from rfl, judge_wholeFrame declared short, ended] at effect
  obtain ⟨sup, slots, reports, supervised⟩ := State.superviseFlag_frame
    ({ t.octetTimes times with
        transit := older ++ [(passedEntry h info).finish], verdict := none, rx := ⟨.fill, 0, []⟩ } : State) (some .good)
  rw [supervised] at effect
  have carries : s.Carries [(passedEntry h info).finish] ((t.octetTimes times).loopFlag []) := by
    rw [effect]
    exact { timed.carries with transit := ⟨older, rfl, same⟩ }
  obtain ⟨u, run, carries, rx, verdict⟩ := carries.exec (exec_loopFlag p.carries.released [] times)
  exact ⟨u, run, carries, by rw [rx, effect], by rw [verdict, effect]⟩

/-! ### The whole frame -/

/-- The frame's octets and its flag, from FILL. -/
theorem State.runs_passedFrame {s : State} {h : Header} {info : List Byte} (w : s.WouldPass h)
    (hops : h.tally.hops ≤ 63) (declared : h.declared = info.length) (c : s.Collects [] s)
    {os : List (Byte × List Bool × Nat)} (octets : os.map Prod.fst = loopFrame h info) (times : Nat) :
    ∃ u, runs (os.map octetCommand ++ [.loopFlag [] times]) s = some u ∧ s.Carries [(passedEntry h info).finish] u ∧
      u.rx = ⟨.fill, 0, []⟩ ∧ u.verdict = none := by
  have short : h.declared ≤ 65535 := w.short.trans (by decide)
  have field : (fcsField (h.octets ++ info)).length = 2 := rfl
  obtain ⟨first, others, rfl, firsts, afters⟩ := List.map_eq_append_iff.1
    (octets.trans (by rfl : loopFrame h info =
      h.octets.take 7 ++ (oct h.declared :: (info ++ fcsField (h.octets ++ info)))))
  obtain ⟨eighth, others, rfl, eighths, afters⟩ := List.map_eq_cons_iff.1 afters
  have seven : first.length = 7 := by simpa [h.octets_length] using congrArg List.length firsts
  have count : others.length = h.declared + 2 := by
    simpa [declared, field] using congrArg List.length afters
  obtain ⟨t, run, collects⟩ := c.octets first (by simp [seven])
  obtain ⟨t', run', passes⟩ := collects.eighth w hops eighth (by rw [List.nil_append, firsts, eighths]; rfl)
  obtain ⟨t'', run'', passes⟩ := passes.octets short others (by simp [count])
  rw [List.nil_append, afters] at passes
  obtain ⟨u, last, result⟩ := passes.flag declared short times
  refine ⟨u, ?_, result⟩
  rw [List.map_append, List.map_cons, List.append_assoc, List.cons_append, runs_append, run]
  show runs (octetCommand eighth :: (others.map octetCommand ++ [.loopFlag [] times])) t = some u
  rw [runs, run']
  show runs (others.map octetCommand ++ [.loopFlag [] times]) t' = some u
  rw [runs_append, run'']
  show runs [.loopFlag [] times] t'' = some u
  rw [runs, last]
  rfl

/-- Settles O7: the frame's entry read off at its end. -/
theorem passedFrameIsForwardedWhole : Obligations.PassedFrameIsForwardedWhole := by
  intro s h info os times octets released ready service fill hops declared short foreign near other unmatched passed places
    store
  have w : s.WouldPass h := ⟨declared ▸ short, service, foreign, near, other, unmatched, passed, places, store⟩
  have collects : s.Collects [] s := ⟨⟨released, ready, rfl, rfl, s.transit, by simp, rfl⟩, fill⟩
  obtain ⟨t, run, carries, rx, verdict⟩ := State.runs_passedFrame w hops declared collects octets times
  obtain ⟨older, transit, same⟩ := carries.transit
  obtain ⟨received, released, entry⟩ := passedEntry_eq h info
  refine ⟨t, older, _, run, transit, same, ?_⟩
  rw [entry, ← declared]
  exact ⟨rfl, rfl, rfl, rfl, rfl, rfl, rx, verdict, carries.counters⟩

end Sys2Proof.Machine
end

section
/-! SUPPORT. How full the stores and queues are: one relation, kept by every operation that makes no reservation, places
nothing and takes nothing in (R45, R66, R68, R69, R99, R126, R133). -/

namespace Sys2Proof.Machine

/-! ### The relation -/

/-- No store and no queue of `t` is fuller than it is in `s`. The reservations of the transit path and of the delivery
store are some of those in `s`, in their order, so that neither their number nor their sum has risen. -/
structure State.NoFuller (s t : State) : Prop where
  transit : (t.transit.map (fun e => e.reservation)).Sublist (s.transit.map (fun e => e.reservation))
  delivery : (t.delivery.map (fun e => e.reservation)).Sublist (s.delivery.map (fun e => e.reservation))
  urgent : t.urgent.length ≤ s.urgent.length
  normal : t.normal.length ≤ s.normal.length
  outbound : t.outboundReserved ≤ s.outboundReserved
  own : t.own.length ≤ s.own.length
  requests : t.requests.length ≤ s.requests.length
  replies : t.replies.length ≤ s.replies.length

theorem State.NoFuller.refl (s : State) : s.NoFuller s :=
  ⟨.refl _, .refl _, Nat.le_refl _, Nat.le_refl _, Nat.le_refl _, Nat.le_refl _, Nat.le_refl _, Nat.le_refl _⟩

theorem State.NoFuller.trans {s t u : State} (h : s.NoFuller t) (k : t.NoFuller u) : s.NoFuller u where
  transit := k.transit.trans h.transit
  delivery := k.delivery.trans h.delivery
  urgent := k.urgent.trans h.urgent
  normal := k.normal.trans h.normal
  outbound := k.outbound.trans h.outbound
  own := k.own.trans h.own
  requests := k.requests.trans h.requests
  replies := k.replies.trans h.replies

/-- All of the state that the relation reads. -/
def State.storedPart (s : State) :=
  (s.transit, s.delivery, s.urgent, s.normal, s.ltx, s.own, s.requests, s.replies)

/-- An operation on the rest of the state. -/
theorem State.NoFuller.of_storedPart {s t : State} (h : t.storedPart = s.storedPart) : s.NoFuller t := by
  simp only [State.storedPart, Prod.mk.injEq] at h
  obtain ⟨transit, delivery, urgent, normal, ltx, own, requests, replies⟩ := h
  constructor <;> simp only [State.outboundReserved, transit, delivery, urgent, normal, ltx, own, requests, replies,
    Nat.le_refl, List.Sublist.refl]

/-- An operation on the transit queue and the loop transmitter. -/
theorem State.NoFuller.of_transit {s : State} {queue : List TransitEntry} {line : LoopTx}
    (sub : (queue.map (fun e => e.reservation)).Sublist (s.transit.map (fun e => e.reservation)))
    (free : line.reservation ≤ s.ltx.reservation) : s.NoFuller { s with transit := queue, ltx := line } :=
  { State.NoFuller.refl s with transit := sub, outbound := Nat.add_le_add_left free _ }

theorem State.NoFuller.ite {s t : State} {p : Prop} [Decidable p] (h : s.NoFuller t) :
    s.NoFuller (if p then t else s) := by
  split
  · exact h
  · exact .refl s

/-- Bounds that hold of a fuller state hold. -/
theorem StoresBounded.of_noFuller {s t : State} (h : StoresBounded s) (k : s.NoFuller t) : StoresBounded t := by
  obtain ⟨⟨entries, store⟩, ⟨entries', store'⟩, ⟨urgent, normal, outbound⟩, own, requests, replies⟩ := h
  have places := k.transit.length_le
  have places' := k.delivery.length_le
  rw [List.length_map, List.length_map] at places places'
  exact ⟨⟨places.trans entries, (k.transit.sum_le_sum fun _ _ => Nat.zero_le _).trans store⟩,
    ⟨places'.trans entries', (k.delivery.sum_le_sum fun _ _ => Nat.zero_le _).trans store'⟩,
    ⟨k.urgent.trans urgent, k.normal.trans normal, k.outbound.trans outbound⟩,
    k.own.trans own, k.requests.trans requests, k.replies.trans replies⟩

/-! ### Counts, reports and the return log -/

theorem State.noFuller_count (s : State) (c : Counter) : s.NoFuller (s.count c) := .of_storedPart rfl

theorem State.noFuller_raise (s : State) (k : NoticeKind) (d : Detail) : s.NoFuller (s.raise k d) := .of_storedPart rfl

theorem State.noFuller_causeStatus (s : State) : s.NoFuller s.causeStatus := by
  obtain ⟨_, _, h⟩ := s.causeStatus_frame
  rw [h]
  exact .of_storedPart rfl

theorem State.noFuller_discard (s : State) : s.NoFuller s.discard := by
  obtain ⟨_, _, _, _, h⟩ := s.discard_frame
  rw [h]
  exact .of_storedPart rfl

theorem State.noFuller_refuse (s : State) (tag : Tag) (cls : StationClass) (reason : Reason) :
    s.NoFuller (s.refuse tag cls reason) := by
  obtain ⟨_, _, _, _, h⟩ := s.refuse_frame tag cls reason
  rw [h]
  exact .of_storedPart rfl

theorem State.noFuller_stripHeader (s : State) (h : Header) : s.NoFuller (s.stripHeader h) := by
  obtain ⟨_, _, _, e⟩ := s.stripHeader_frame h
  rw [e]
  exact .of_storedPart rfl

theorem State.noFuller_endReturning (s : State) (good : Bool) : s.NoFuller (s.endReturning good) := by
  obtain ⟨_, _, _, h⟩ := s.endReturning_frame good
  rw [h]
  exact .of_storedPart rfl

theorem State.noFuller_expireLog (s : State) : s.NoFuller s.expireLog := .of_storedPart rfl

theorem State.noFuller_expireSession (s : State) : s.NoFuller s.expireSession := by
  obtain ⟨_, _, _, h⟩ := s.expireSession_frame
  rw [h]
  exact .of_storedPart rfl

theorem State.noFuller_retryDeadline (s : State) (k : NoticeKind) : s.NoFuller (s.retryDeadline k) := by
  obtain ⟨_, _, h⟩ := s.retryDeadline_frame k
  rw [h]
  exact .of_storedPart rfl

/-! ### Copies in transit (R46, R50 to R58) -/

theorem map_modifyLast {α β : Type} {f : α → α} {g : α → β} (same : ∀ a, g (f a) = g a) (p : α → Bool) (l : List α) :
    (modifyLast p f l).map g = l.map g := by
  rcases l.eq_nil_or_concat' with rfl | ⟨older, a, rfl⟩
  · rfl
  · rw [modifyLast_append, List.map_append, List.map_append]
    split
    · rw [List.map_singleton, same, List.map_singleton]
    · rfl

theorem State.noFuller_octetTime (s : State) : s.NoFuller s.octetTime := by
  unfold State.octetTime
  split
  · rename_i e es _ ht
    exact .of_transit (by rw [ht, List.map_cons, e.sendOctet_reservation, List.map_cons]) (Nat.le_refl _)
  · exact .refl s

theorem State.noFuller_octetTimes (n : Nat) (s : State) : s.NoFuller (s.octetTimes n) := by
  induction n generalizing s with
  | zero => exact .refl s
  | succ n ih => exact s.noFuller_octetTime.trans (ih _)

theorem State.noFuller_transitOctet (s : State) (v : Byte) : s.NoFuller (s.transitOctet v) :=
  .of_transit (by rw [map_modifyLast fun e => e.takeOctet_reservation v]) (Nat.le_refl _)

theorem State.noFuller_underrun (s : State) : s.NoFuller s.underrun := by
  unfold State.underrun
  split
  · exact .refl s
  · rename_i e es ht
    split
    · refine ((s.noFuller_count .underrun).trans (State.noFuller_raise _ .underrun (.address e.header.sa))).trans ?_
      refine .of_transit ?_ (Nat.zero_le _)
      rw [State.raise_transit, State.count_transit, ht, List.map_cons, List.map_cons]
    · exact .refl s

theorem State.noFuller_completeForward (s : State) : s.NoFuller s.completeForward := by
  unfold State.completeForward
  split
  · exact .refl s
  · rename_i e es ht
    split
    · refine (s.noFuller_count .forwarded).trans (.of_transit ?_ (Nat.zero_le _))
      rw [State.count_transit, ht, List.map_cons]
      exact List.sublist_cons_self _ _
    · exact .refl s

theorem State.noFuller_completeAbort (s : State) : s.NoFuller s.completeAbort :=
  .ite (.of_transit (.refl _) (Nat.zero_le _))

/-- The frame's end removes the newest reservation, or leaves all (R52 to R54, R58). -/
theorem State.noFuller_endTransit (s : State) (good : Bool) : s.NoFuller (s.endTransit good) := by
  have dropped := (List.dropLast_sublist s.transit).map (fun e => e.reservation)
  unfold State.endTransit
  split
  · exact .refl s
  · split
    · exact .of_transit dropped (Nat.le_refl _)
    · exact .of_transit (by rw [map_modifyLast TransitEntry.finish_reservation]) (Nat.le_refl _)
    · exact .of_transit dropped (Nat.le_refl _)
    · exact .of_transit dropped (Nat.zero_le _)

/-! ### The delivery store and the station port (R104 to R111, R126) -/

theorem State.NoFuller.of_delivery {s : State} {queue : List DeliveryEntry}
    (sub : (queue.map (fun e => e.reservation)).Sublist (s.delivery.map (fun e => e.reservation))) :
    s.NoFuller { s with delivery := queue } := { State.NoFuller.refl s with delivery := sub }

theorem DeliveryEntry.takeOctet_reservation (e : DeliveryEntry) (v : Byte) :
    (e.takeOctet v).reservation = e.reservation := rfl

theorem State.noFuller_deliveryOctet (s : State) (v : Byte) : s.NoFuller (s.deliveryOctet v) :=
  .of_delivery (by rw [map_modifyLast fun e => e.takeOctet_reservation v])

theorem State.noFuller_endDelivery (s : State) (good : Bool) : s.NoFuller (s.endDelivery good) := by
  unfold State.endDelivery
  split
  · exact .refl s
  · split
    · exact .of_delivery (by rw [map_modifyLast]; exact fun _ => rfl)
    · exact .of_delivery ((List.dropLast_sublist _).map _)

theorem State.noFuller_portChoice (s : State) : s.NoFuller s.portChoice := by
  unfold State.portChoice
  split
  · split
    · unfold State.beginRecord
      split <;> exact .of_storedPart rfl
    · exact .of_storedPart rfl
    · rename_i e _ _ offered
      obtain ⟨head, -⟩ := Option.filter_eq_some_iff.1 offered
      obtain ⟨rest, store⟩ := List.head?_eq_some_iff.1 head
      exact { State.NoFuller.refl s with
        delivery := by rw [store, List.tail_cons, List.map_cons, List.map_cons] }
    · exact .refl s
  · exact .refl s

theorem State.noFuller_reportSent (s : State) : s.NoFuller s.reportSent := by
  unfold State.reportSent
  split
  · unfold State.recordSent
    split
    · exact .of_storedPart rfl
    · split <;> exact .of_storedPart rfl
  · exact { State.NoFuller.refl s with replies := (List.tail_sublist _).length_le }
  · exact { State.NoFuller.refl s with delivery := (List.tail_sublist _).map _ }
  · exact .refl s

theorem State.noFuller_portAbortSent (s : State) : s.NoFuller s.portAbortSent := .ite (.of_storedPart rfl)

theorem State.noFuller_endBreak (s : State) : s.NoFuller s.endBreak := by
  refine .ite (State.NoFuller.trans ?_ (State.noFuller_causeStatus _))
  exact .of_storedPart rfl

/-! ### The frame's octets and its end (R8, R9, R134) -/

theorem State.noFuller_requestOctet (s : State) (v : Byte) : s.NoFuller (s.requestOctet v) :=
  { State.NoFuller.refl s with requests := (List.length_map _).le }

theorem State.noFuller_endRequest (s : State) (good : Bool) : s.NoFuller (s.endRequest good) := by
  unfold State.endRequest
  split
  · exact { State.NoFuller.refl s with requests := (List.length_map _).le }
  · exact { State.NoFuller.refl s with requests := List.length_filter_le _ _ }

theorem State.noFuller_infoOctet (s : State) (v : Byte) : s.NoFuller (s.infoOctet v) := by
  unfold State.infoOctet
  split
  · exact .refl s
  · exact (((s.noFuller_transitOctet v).ite).trans (State.noFuller_deliveryOctet _ v).ite).trans
      (State.noFuller_requestOctet _ v).ite

theorem State.noFuller_endBlocks (s : State) (good : Bool) : s.NoFuller (s.endBlocks good) := by
  unfold State.endBlocks
  split
  · exact .refl s
  · exact ((((s.noFuller_endTransit good).ite).trans (State.noFuller_endDelivery _ good).ite).trans
      (State.noFuller_endRequest _ good).ite).trans (State.noFuller_endReturning _ good).ite

theorem State.noFuller_frameEnd (s : State) (c : EndCond) : s.NoFuller (s.frameEnd c) := by
  refine (s.noFuller_endBlocks c.isGood).trans ?_
  unfold State.frameEnd
  dsimp only
  split <;> exact .of_storedPart rfl

/-! ### The loop receive line -/

theorem State.noFuller_rx (s : State) (rx : LoopRx) (sup : Supervisor) : s.NoFuller { s with rx := rx, sup := sup } :=
  .of_storedPart rfl

theorem State.noFuller_superviseFlag (s : State) (c : Option EndCond) : s.NoFuller (s.superviseFlag c) := by
  unfold State.superviseFlag
  dsimp only
  split <;> exact .of_storedPart rfl

theorem State.noFuller_loopFlag (s : State) (tail : List Bool) : s.NoFuller (s.loopFlag tail) := by
  unfold State.loopFlag
  dsimp only
  refine State.NoFuller.trans ?_ (State.noFuller_superviseFlag _ _)
  split
  · exact (s.noFuller_frameEnd _).trans (State.noFuller_rx _ _ _)
  · exact s.noFuller_rx _ _

theorem State.noFuller_abortFrame (s : State) (reason : AbortReason) : s.NoFuller (s.abortFrame reason) := by
  unfold State.abortFrame
  split
  · exact s.noFuller_frameEnd _
  · exact .refl s

theorem State.noFuller_loopOnes (s : State) (run : Nat) : s.NoFuller (s.loopOnes run) :=
  (s.noFuller_abortFrame .abort).trans (State.noFuller_rx _ _ _)

theorem State.noFuller_silence (s : State) : s.NoFuller s.silence :=
  .ite (((s.noFuller_raise _ _).trans (State.noFuller_abortFrame _ .silence)).trans (State.noFuller_rx _ _ _))

/-! ### Insertion (R69, R71 to R77) -/

/-- What holds of the state and of each candidate's start holds of the arbiter's choice among them (R72, R74). -/
theorem State.insert_induction {P : State → Prop} {s : State} (stay : P s)
    (own : ∀ f rest, s.own = f :: rest → P (s.startOwn f rest))
    (urgent : ∀ f rest, s.urgent = f :: rest → P (s.startUrgent f rest))
    (normal : ∀ f rest, s.normal = f :: rest → P (s.startNormal f rest)) : P s.insert := by
  have tryOwn : ∀ t, s.tryOwn = some t → P t := by
    intro t h
    unfold State.tryOwn at h
    split at h
    · split at h
      · obtain rfl := Option.some.inj h
        exact own _ _ ‹_›
      · cases h
    · cases h
  have tryUrgent : ∀ t, s.tryUrgent = some t → P t := by
    intro t h
    unfold State.tryUrgent at h
    split at h
    · split at h
      · obtain rfl := Option.some.inj h
        exact urgent _ _ ‹_›
      · cases h
    · cases h
  have tryNormal : ∀ t, s.tryNormal = some t → P t := by
    intro t h
    unfold State.tryNormal at h
    split at h
    · split at h
      · obtain rfl := Option.some.inj h
        exact normal _ _ ‹_›
      · cases h
    · cases h
  have started : ∀ {a b c : Option State}, (∀ t, a = some t → P t) → (∀ t, b = some t → P t) →
      (∀ t, c = some t → P t) → P (((a.or b).or c).getD s) := by
    intro a b c ha hb hc
    cases a with
    | some t => exact ha t rfl
    | none =>
      cases b with
      | some t => exact hb t rfl
      | none =>
        cases c with
        | some t => exact hc t rfl
        | none => exact stay
  unfold State.insert
  split
  · exact started tryNormal tryOwn tryUrgent
  · exact started tryOwn tryUrgent tryNormal

theorem State.noFuller_causeIfWasFull (s : State) (before : Nat) : s.NoFuller (s.causeIfWasFull before) :=
  .ite s.noFuller_causeStatus

/-- The frame being inserted takes its reservation along from its queue (R69). -/
theorem State.noFuller_insert (s : State) : s.NoFuller s.insert := by
  refine State.insert_induction (.refl s) (fun f rest hq => ?_) (fun f rest hq => ?_) fun f rest hq => ?_
  · exact { State.NoFuller.refl s with
      outbound := by simp [State.outboundReserved, State.startOwn, LoopTx.reservation]
      own := by simp [State.startOwn, hq] }
  · refine State.NoFuller.trans ?_ (State.noFuller_causeIfWasFull _ _)
    exact { State.NoFuller.refl s with
      outbound := by simp [State.outboundReserved, hq, LoopTx.reservation]; omega
      urgent := by simp [hq] }
  · refine State.NoFuller.trans ?_ (State.noFuller_causeIfWasFull _ _)
    exact { State.NoFuller.refl s with
      outbound := by simp [State.outboundReserved, hq, LoopTx.reservation]; omega
      normal := by simp [hq] }

theorem State.noFuller_arbitrate (s : State) : s.NoFuller s.arbitrate := by
  unfold State.arbitrate
  split
  · split
    · rename_i e es ht
      exact .ite (.of_transit (by rw [ht, List.map_cons, List.map_cons]) (Nat.zero_le _))
    · exact s.noFuller_insert
  · exact .refl s

theorem State.noFuller_endInsertion (s : State) : s.NoFuller s.endInsertion := by
  unfold State.endInsertion
  split
  · exact (s.noFuller_count .inserted).trans (.of_transit (.refl _) (Nat.zero_le _))
  · exact .refl s

/-! ### The station receive line (R111, R115, R116, R121, R129) -/

theorem State.noFuller_srx (s : State) (x : StationRx) : s.NoFuller { s with srx := x } := .of_storedPart rfl

theorem State.noFuller_breakEffects (s : State) : s.NoFuller s.breakEffects :=
  { State.NoFuller.refl s with
    delivery := List.nil_sublist _
    urgent := Nat.zero_le _
    normal := Nat.zero_le _
    outbound := by simp [State.outboundReserved, State.breakEffects]
    requests := List.length_filter_le _ _
    replies := Nat.zero_le _ }

theorem State.noFuller_startBreak (s : State) (bits : List Bool) : s.NoFuller (s.startBreak bits) :=
  .ite ((s.noFuller_srx _).trans (State.noFuller_breakEffects _))

theorem State.noFuller_stationExcess (s : State) (v : Byte) (rest : List Bool) :
    s.NoFuller (s.stationExcess v rest) :=
  ((s.noFuller_srx _).trans (State.noFuller_discard _)).trans (State.noFuller_breakEffects _).ite

theorem State.noFuller_stationOctet (s : State) (v : Byte) (rest : List Bool) : s.NoFuller (s.stationOctet v rest) := by
  unfold State.stationOctet
  dsimp only
  split
  · exact s.noFuller_stationExcess v rest
  · exact (s.noFuller_srx _).trans (State.noFuller_breakEffects _).ite

theorem State.noFuller_stationFlag (s : State) : s.NoFuller s.stationFlag := by
  unfold State.stationFlag
  split <;> exact .of_storedPart rfl

theorem State.noFuller_stationAbort (s : State) (idle : Bool) : s.NoFuller (s.stationAbort idle) := by
  unfold State.stationAbort
  split <;> exact .of_storedPart rfl

theorem State.noFuller_stationDiscard (s : State) (how : StationEnd) : s.NoFuller (s.stationDiscard how) := by
  have discarded := fun x => (s.noFuller_srx x).trans (State.noFuller_discard _)
  unfold State.stationDiscard
  split
  · split
    · split
      · exact .refl s
      · exact discarded _
    · exact .ite (s.noFuller_stationExcess _ _)
    · exact discarded _
  · exact .refl s

end Sys2Proof.Machine
end

section
/-! The bounds of stores and queues over every command: what makes a reservation, places a frame or takes one in does so
where there is room, and all else leaves the stores and queues no fuller (R45, R66, R68, R69, R99, R126, R133). -/

namespace Sys2Proof.Machine

/-! ### The eighth octet (R47, R101, R134) -/

/-- The transit path takes a frame only where it has an entry and the octets for it (R47). -/
theorem State.reserveTransit_storesBounded {s : State} (h : StoresBounded s) (hd : Header) (marks : Option Mark) :
    StoresBounded (s.reserveTransit hd marks) := by
  unfold State.reserveTransit
  split
  · rename_i room
    obtain ⟨place, octets⟩ := of_decide_eq_true room
    obtain ⟨-, others⟩ := h
    refine ⟨⟨?_, ?_⟩, others⟩
    · rw [List.length_append]
      exact place
    · simpa [State.transitReserved, TransitEntry.start] using octets
  · exact h.of_noFuller ((s.noFuller_count _).trans (State.noFuller_raise _ _ _))

/-- The delivery store takes a copy only where it has an entry and the octets for it (R101). -/
theorem State.reserveDelivery_storesBounded {s : State} (h : StoresBounded s) (hd : Header) (label : Option Byte) :
    StoresBounded (s.reserveDelivery hd label).2 := by
  unfold State.reserveDelivery
  split
  · rename_i room
    obtain ⟨-, place, octets⟩ := of_decide_eq_true room
    obtain ⟨transit, -, others⟩ := h
    refine ⟨transit, ⟨?_, ?_⟩, others⟩
    · rw [List.length_append]
      exact place
    · simpa [State.deliveryReserved, DeliveryEntry.start] using octets
  · exact h.of_noFuller ((s.noFuller_count _).trans (State.noFuller_raise _ _ _))

/-- A request joins a queue that has a place, from either link (R134, R135). -/
theorem StoresBounded.join {s : State} (h : StoresBounded s) (place : s.requests.length < Config.requestPlaces)
    (r : Request) : StoresBounded { s with requests := s.requests ++ [r] } := by
  obtain ⟨transit, delivery, outbound, own, -, replies⟩ := h
  refine ⟨transit, delivery, outbound, own, ?_, replies⟩
  rw [List.length_append]
  exact place

theorem State.offerRequest_storesBounded {s : State} (h : StoresBounded s) (sa : Address) :
    StoresBounded (s.offerRequest sa).2 := by
  unfold State.offerRequest
  split
  · exact h.join ‹_› _
  · exact h.of_noFuller (s.noFuller_count _)

theorem State.noFuller_hitMatched (s : State) (f : Finding) : s.NoFuller (s.hitMatched f) := by
  obtain ⟨_, h, -⟩ := s.hitMatched_frame f
  rw [h]
  exact .of_storedPart rfl

theorem State.noFuller_verdict (s : State) (r : Option VerdictRecord) : s.NoFuller { s with verdict := r } :=
  .of_storedPart rfl

theorem State.judgeHeader_storesBounded {s : State} (h : StoresBounded s) (hd : Header) (f : Finding) :
    StoresBounded (s.judgeHeader hd f) := by
  have hit : StoresBounded (s.hitMatched f) := h.of_noFuller (s.noFuller_hitMatched f)
  have recorded : ∀ {t : State} (r : Option VerdictRecord), StoresBounded t → StoresBounded { t with verdict := r } :=
    fun r ht => ht.of_noFuller (State.noFuller_verdict _ r)
  unfold State.judgeHeader
  dsimp only
  split
  · exact recorded _ (h.of_noFuller (s.noFuller_count _))
  · exact recorded _ (h.of_noFuller (s.noFuller_stripHeader hd))
  · exact recorded _ (h.of_noFuller ((s.noFuller_count _).trans (State.noFuller_raise _ _ _)))
  · exact recorded _ (State.reserveTransit_storesBounded (State.offerRequest_storesBounded h _) _ _)
  · exact recorded _ (State.reserveTransit_storesBounded hit _ _)
  · exact recorded _ (State.reserveTransit_storesBounded (State.reserveDelivery_storesBounded hit _ _) _ _)
  · exact recorded _ (hit.of_noFuller (State.noFuller_count _ _))

theorem State.loopOctet_storesBounded {s : State} (h : StoresBounded s) (v : Byte) (rest : List Bool) :
    StoresBounded (s.loopOctet v rest) := by
  have received : ∀ rx, StoresBounded { s with rx := rx } := fun rx => h.of_noFuller (s.noFuller_rx rx s.sup)
  unfold State.loopOctet
  split
  · exact received _
  · exact received _
  · rename_i f _
    unfold State.frameOctet
    dsimp only
    split
    · exact (received _).of_noFuller ((State.noFuller_frameEnd _ _).trans (State.noFuller_rx _ _ _))
    split
    · exact State.judgeHeader_storesBounded (received _) _ _
    split
    · exact (received _).of_noFuller (State.noFuller_infoOctet _ v)
    · exact received _

/-! ### Station frames (R68, R118, R119, R135) -/

/-- Check 5 of R118: the class queue has a place and the store has the octets. -/
theorem State.not_stationFull_iff (s : State) (cls : StationClass) (declared : Nat) :
    ¬ s.stationFull cls declared = true ↔
      (s.classQueue cls).length < Config.classFrames ∧
        s.outboundReserved + (8 + declared) ≤ Config.outboundStore := by
  have full : s.stationFull cls declared = true ↔
      Config.classFrames ≤ (s.classQueue cls).length ∨ s.freeOutbound < 8 + declared := decide_eq_true_iff
  rw [full]
  unfold State.freeOutbound
  omega

theorem State.outboundReserved_urgent (s : State) (f : StationFrame) :
    ({ s with urgent := s.urgent ++ [f] } : State).outboundReserved = s.outboundReserved + f.reservation := by
  simp only [State.outboundReserved, List.map_append, List.sum_append, List.map_singleton, List.sum_singleton]
  omega

theorem State.outboundReserved_normal (s : State) (f : StationFrame) :
    ({ s with normal := s.normal ++ [f] } : State).outboundReserved = s.outboundReserved + f.reservation := by
  simp only [State.outboundReserved, List.map_append, List.sum_append, List.map_singleton, List.sum_singleton]
  omega

/-- An accepted frame joins its queue with its reservation (R68, R119). -/
theorem State.enqueue_storesBounded {s : State} (h : StoresBounded s) {m : StationSubmission}
    (room : ¬ s.stationFull m.cls m.header.declared = true) : StoresBounded (s.enqueue m) := by
  obtain ⟨place, octets⟩ := (s.not_stationFull_iff _ _).1 room
  obtain ⟨transit, delivery, ⟨urgent, normal, -⟩, queues⟩ := h
  unfold State.enqueue
  split
  · rename_i cls
    rw [cls] at place
    refine ⟨transit, delivery, ⟨?_, normal, ?_⟩, queues⟩
    · rw [List.length_append]
      exact place
    · exact (s.outboundReserved_urgent m.frame).trans_le octets
  · rename_i cls
    rw [cls] at place
    refine ⟨transit, delivery, ⟨urgent, ?_, ?_⟩, queues⟩
    · rw [List.length_append]
      exact place
    · exact (s.outboundReserved_normal m.frame).trans_le octets

theorem State.accept_storesBounded {s : State} (h : StoresBounded s) (m : StationSubmission) :
    StoresBounded (s.accept m) := by
  have refused := fun reason => h.of_noFuller (s.noFuller_refuse m.tag m.cls reason)
  unfold State.accept
  split
  · exact refused _
  split
  · exact refused _
  split
  · unfold State.offerLocal
    split
    · exact h.join ‹_› _
    · exact h.of_noFuller ((s.noFuller_count _).trans (State.noFuller_refuse _ _ _ _))
  split
  · exact refused _
  split
  · exact refused _
  · exact State.enqueue_storesBounded h ‹_›

theorem State.stationGood_storesBounded {s : State} (h : StoresBounded s) : StoresBounded s.stationGood := by
  unfold State.stationGood
  split
  · split
    · exact State.accept_storesBounded (h.of_noFuller (s.noFuller_srx _)) _
    · exact h
  · exact h

/-! ### Requests carried out (R136, R140, R153) -/

/-- `t` is `s` with other lists, tables, counters and notice slots, or another session. -/
def State.Administers (s t : State) : Prop :=
  ∃ active epoch session identity managers counters slots, t =
    { s with active := active, epoch := epoch, session := session, identity := identity, managers := managers,
             counters := counters, slots := slots }

theorem State.asOwner_administers {s : State} {who : Requester} {run : Session → State → State × Answer}
    (h : ∀ (x : Session) (t : State), t.Administers (run x t).1) : s.Administers (s.asOwner who run).1 := by
  unfold State.asOwner State.ifAuthorized
  split
  · split
    · exact ⟨_, _, _, _, _, _, _, rfl⟩
    · split
      · obtain ⟨_, _, _, _, _, _, _, e⟩ := h _ _
        rw [e]
        exact ⟨_, _, _, _, _, _, _, rfl⟩
      · exact ⟨_, _, _, _, _, _, _, rfl⟩
  · exact ⟨_, _, _, _, _, _, _, rfl⟩

/-- A run of a command that neither writes a parameter nor restarts the part. -/
theorem State.runOf_administers {c : Command} (hc : c.reachesReceiver = false) (r : Request) (s : State) :
    s.Administers (State.runOf (some c) r s).1 := by
  cases c with
  | paramWrite => cases hc
  | restart => cases hc
  | status => exact ⟨_, _, _, _, _, _, _, rfl⟩
  | paramRead =>
    show s.Administers (State.runParamRead r s).1
    unfold State.runParamRead
    repeat' split
    all_goals exact ⟨_, _, _, _, _, _, _, rfl⟩
  | listRead =>
    show s.Administers (State.runListRead r s).1
    unfold State.runListRead
    repeat' split
    all_goals exact ⟨_, _, _, _, _, _, _, rfl⟩
  | listWrite =>
    show s.Administers (State.runListWrite r s).1
    unfold State.runListWrite State.ifAuthorized State.writeList
    repeat' split
    all_goals exact ⟨_, _, _, _, _, _, _, rfl⟩
  | tableRead =>
    show s.Administers (State.runTableRead r s).1
    unfold State.runTableRead
    repeat' split
    all_goals exact ⟨_, _, _, _, _, _, _, rfl⟩
  | countersRead =>
    show s.Administers (State.runCountersRead r s).1
    unfold State.runCountersRead State.ifAuthorized State.readCounters
    repeat' split
    all_goals exact ⟨_, _, _, _, _, _, _, rfl⟩
  | sessionOpen =>
    show s.Administers (State.runSessionOpen r s).1
    unfold State.runSessionOpen State.ifAuthorized
    repeat' split
    all_goals exact ⟨_, _, _, _, _, _, _, rfl⟩
  | entryInsert =>
    show s.Administers (State.runEntryInsert r s).1
    unfold State.runEntryInsert
    split
    · refine State.asOwner_administers fun x t => ?_
      unfold State.insertEntry
      repeat' split
      all_goals exact ⟨_, _, _, _, _, _, _, rfl⟩
    · exact ⟨_, _, _, _, _, _, _, rfl⟩
  | entryReplace =>
    show s.Administers (State.runEntryReplace r s).1
    unfold State.runEntryReplace
    split
    · refine State.asOwner_administers fun x t => ?_
      unfold State.replaceEntry
      repeat' split
      all_goals exact ⟨_, _, _, _, _, _, _, rfl⟩
    · exact ⟨_, _, _, _, _, _, _, rfl⟩
  | entryRemove =>
    show s.Administers (State.runEntryRemove r s).1
    unfold State.runEntryRemove
    split
    · refine State.asOwner_administers fun x t => ?_
      unfold State.removeEntry
      split
      all_goals exact ⟨_, _, _, _, _, _, _, rfl⟩
    · exact ⟨_, _, _, _, _, _, _, rfl⟩
  | sessionCommit => exact State.asOwner_administers fun _ _ => ⟨_, _, _, _, _, _, _, rfl⟩
  | sessionDiscard => exact State.asOwner_administers fun _ _ => ⟨_, _, _, _, _, _, _, rfl⟩
  | noticeAck =>
    show s.Administers (State.runNoticeAck r s).1
    unfold State.runNoticeAck State.ifAuthorized State.ackNotice
    repeat' split
    all_goals exact ⟨_, _, _, _, _, _, _, rfl⟩

theorem State.noFuller_afterWrite (s : State) (p : Param) : s.NoFuller (s.afterWrite p) := by
  unfold State.afterWrite
  split
  · exact s.noFuller_expireLog
  · exact s.noFuller_expireSession
  · exact s.noFuller_silence
  · exact .refl s

theorem State.noFuller_runParamWrite (r : Request) (s : State) : s.NoFuller (State.runParamWrite r s).1 := by
  have written : ∀ ps, s.NoFuller { s with params := ps } := fun _ => .of_storedPart rfl
  unfold State.runParamWrite State.ifAuthorized State.writeParam
  repeat' split
  · exact .refl s
  · exact .refl s
  · exact (written _).trans (State.noFuller_afterWrite _ _)
  · exact .refl s
  · exact .refl s

theorem LoopTx.abort_reservation (l : LoopTx) : l.abort.reservation = 0 := by cases l <;> rfl

/-- RESTART empties every store and queue, but for its own request and the REPLYs (R153, R154). -/
theorem State.noFuller_restart {s : State} {r : Request} (hr : r ∈ s.requests) : s.NoFuller (s.restart r) := by
  obtain ⟨_, _, port⟩ := State.causeStatus_frame
    { s.restartLoop.restartQueues.flushLog with flushed := saturate (s.flushed + (s.urgent.length + s.normal.length)) }
  have stored : (s.restart r).storedPart = ([], [], [], [], s.ltx.abort, [], [r], s.replies) :=
    congrArg (fun t => ({ t with requests := [r] } : State).storedPart) port
  simp only [State.storedPart, Prod.mk.injEq] at stored
  obtain ⟨transit, delivery, urgent, normal, ltx, own, requests, replies⟩ := stored
  constructor
  case transit => simp [transit]
  case delivery => simp [delivery]
  case urgent => simp [urgent]
  case normal => simp [normal]
  case outbound => simp [State.outboundReserved, urgent, normal, ltx, LoopTx.abort_reservation]
  case own => simp [own]
  case requests => rw [requests]; exact List.length_pos_of_mem hr
  case replies => simp [replies]

theorem State.noFuller_runOf {s : State} {r : Request} (hr : r ∈ s.requests) (c : Option Command) :
    s.NoFuller (State.runOf c r s).1 := by
  cases c with
  | none => exact .refl s
  | some c =>
    cases hc : c.reachesReceiver with
    | false =>
      obtain ⟨_, _, _, _, _, _, _, e⟩ := State.runOf_administers hc r s
      rw [e]
      exact .of_storedPart rfl
    | true =>
      cases c with
      | paramWrite => exact State.noFuller_runParamWrite r s
      | restart =>
        show s.NoFuller (s.ifAuthorized r.source (s.restart r, .ok [])).1
        unfold State.ifAuthorized
        split
        · exact State.noFuller_restart hr
        · exact .refl s
      | _ => cases hc

/-- A reply path with a place keeps it while nothing is placed. -/
theorem State.NoFuller.replyPlace {s t : State} (k : s.NoFuller t) {r : Request} (h : s.replyPlace r = true) :
    t.replyPlace r = true := by
  cases source : r.source with
  | loop sa =>
    simp only [State.replyPlace, State.ownPlace, source, decide_eq_true_eq] at h ⊢
    exact k.own.trans_lt h
  | station tag =>
    simp only [State.replyPlace, source, decide_eq_true_eq] at h ⊢
    exact k.replies.trans_lt h

/-- The reply takes the place that its path has (R136, R140). -/
theorem State.reply_storesBounded {s : State} (h : StoresBounded s) {r : Request} (place : s.replyPlace r = true)
    (a : Answer) : StoresBounded (s.reply r a) := by
  obtain ⟨transit, delivery, outbound, own, requests, replies⟩ := h
  have fewer : s.requests.tail.length ≤ Config.requestPlaces := (List.tail_sublist _).length_le.trans requests
  unfold State.replyPlace at place
  unfold State.reply
  split
  · rename_i loop
    rw [loop] at place
    refine ⟨transit, delivery, outbound, ?_, fewer, replies⟩
    rw [List.length_append]
    exact of_decide_eq_true place
  · rename_i station
    rw [station] at place
    refine ⟨transit, delivery, outbound, own, fewer, ?_⟩
    rw [List.length_append]
    exact of_decide_eq_true place

theorem State.engine_storesBounded {s : State} (h : StoresBounded s) : StoresBounded s.engine := by
  refine State.engine_induction h fun t r ready h => ?_
  obtain ⟨rest, queue, -, place⟩ := State.readyHead_some ready
  have run := State.noFuller_runOf (s := t) (r := r) (queue ▸ List.mem_cons_self) r.command
  exact State.reply_storesBounded (h.of_noFuller run) (run.replyPlace place) _

/-! ### Notices (R67, R181, R183) -/

theorem State.placeNotice_storesBounded {s : State} (h : StoresBounded s) (place : s.ownPlace = true) (k : NoticeKind)
    (seq : Byte) (occurrences : Nat) (d : Detail) : StoresBounded (s.placeNotice k seq occurrences d) := by
  obtain ⟨transit, delivery, outbound, -, requests, replies⟩ := h
  refine ⟨transit, delivery, outbound, ?_, requests, replies⟩
  rw [State.placeNotice, List.length_append]
  exact of_decide_eq_true place

theorem State.noFuller_setSlot (s : State) (k : NoticeKind) (x : Slot) : s.NoFuller (s.setSlot k x) :=
  .of_storedPart rfl

theorem State.sendFirst_storesBounded {s : State} (h : StoresBounded s) : StoresBounded s.sendFirst := by
  unfold State.sendFirst
  split
  · rename_i k _
    split
    · unfold State.firstSend
      split
      · rename_i place _ occ d _
        have placed := State.placeNotice_storesBounded h place k s.noticeSeq occ d
        exact placed.of_noFuller (.of_storedPart rfl)
      · exact h
    · exact h
  · exact h

theorem State.resendOf_storesBounded {s : State} (h : StoresBounded s) (k : NoticeKind) :
    StoresBounded (s.resendOf k) := by
  unfold State.resendOf
  split
  · rename_i n _
    split
    · rename_i waits
      simp only [State.resendPlace, Bool.and_eq_true] at waits
      obtain ⟨-, ⟨-, place⟩, -⟩ := waits
      exact (State.placeNotice_storesBounded h place k n.seq n.occurrences n.detail).of_noFuller
        (State.noFuller_setSlot _ k _)
    · exact h
  · exact h

theorem State.resendWaiting_storesBounded {s : State} (h : StoresBounded s) : StoresBounded s.resendWaiting := by
  have all : ∀ (l : List NoticeKind) (s : State), StoresBounded s → StoresBounded (l.foldl State.resendOf s) := by
    intro l
    induction l with
    | nil => exact fun s h => h
    | cons k l ih => exact fun s h => ih _ (State.resendOf_storesBounded h k)
  exact all _ s h

theorem State.settle_storesBounded {s : State} (h : StoresBounded s) : StoresBounded s.settle := by
  rw [State.settle, State.placeNotices]
  exact State.resendWaiting_storesBounded (State.sendFirst_storesBounded (State.engine_storesBounded h))

/-! ### Every command -/

theorem blockEffect_storesBounded (c : Instr) {s : State} (h : StoresBounded s) : StoresBounded (blockEffect c s) := by
  have quiet : ∀ {t}, s.NoFuller t → StoresBounded t := h.of_noFuller
  cases c with
  | loopFlag tail times => exact quiet ((s.noFuller_octetTimes times).trans (State.noFuller_loopFlag _ tail))
  | loopOctet v rest times => exact State.loopOctet_storesBounded (quiet (s.noFuller_octetTimes times)) v rest
  | loopAbort => exact quiet (s.noFuller_loopOnes 7)
  | lineIdle => exact quiet (s.noFuller_loopOnes 15)
  | lineSilenceDeadline => exact quiet s.noFuller_silence
  | arbiterChoice => exact quiet s.noFuller_arbitrate
  | underrun times => exact quiet ((s.noFuller_octetTimes times).trans (State.noFuller_underrun _))
  | forwardComplete => exact quiet s.noFuller_completeForward
  | insertionEnd => exact quiet s.noFuller_endInsertion
  | abortComplete => exact quiet s.noFuller_completeAbort
  | returnTimeoutExpiry => exact quiet s.noFuller_expireLog
  | portBreak bits => exact quiet (s.noFuller_startBreak bits)
  | portBreakEnd => exact quiet s.noFuller_endBreak
  | stationFrameGood => exact State.stationGood_storesBounded h
  | stationFrameDiscard how => exact quiet (s.noFuller_stationDiscard how)
  | portTxChoice => exact quiet s.noFuller_portChoice
  | portReportSent => exact quiet s.noFuller_reportSent
  | portTxAbortComplete => exact quiet s.noFuller_portAbortSent
  | sessionTimeoutExpiry => exact quiet s.noFuller_expireSession
  | noticeRetryDeadline k => exact quiet (s.noFuller_retryDeadline k)
  | stationFlag tail => exact quiet s.noFuller_stationFlag
  | stationOctet v rest => exact quiet (s.noFuller_stationOctet v rest)
  | stationAbort idle => exact quiet (s.noFuller_stationAbort idle)
  | _ => exact h

/-- The stores and queues are empty at power-on, whatever else the state holds (R20, R45, R66, R68, R99). -/
theorem storesBounded_of_powerOn {s : State} (h : s.storedPart = State.reset.storedPart) : StoresBounded s :=
  resetSatisfiesInvariants.1.of_noFuller (.of_storedPart h)

theorem exec_storesBounded {c : Instr} {s t : State} (h : StoresBounded s) (hn : exec c s = .next t) :
    StoresBounded t := by
  have command : (∀ g m, c ≠ .powerOnReset g m) → c ≠ .powerOnResetAssert → StoresBounded t := by
    intro release assert
    have block := blockEffect_storesBounded c h
    rcases exec_cases hn release assert with same | same | same | same <;> rw [same]
    · exact h
    · exact block
    · exact State.settle_storesBounded block
    · exact State.resendWaiting_storesBounded (State.settle_storesBounded h)
  cases c with
  | powerOnReset g m =>
    obtain rfl := Host.Outcome.next.inj hn
    exact storesBounded_of_powerOn rfl
  | powerOnResetAssert =>
    obtain rfl := Host.Outcome.next.inj hn
    exact storesBounded_of_powerOn rfl
  | _ => exact command (by simp) (by simp)

/-- Settles O52: a command keeps every bound, and a millisecond touches no store. -/
theorem stepKeepsStoresBounded : Obligations.StepKeepsStoresBounded := by
  intro s t h hn
  unfold step at hn
  split at hn
  · obtain rfl := Host.Outcome.next.inj hn
    refine h.of_noFuller ?_
    unfold State.tick
    split <;> exact .of_storedPart rfl
  · rename_i c rest _
    exact exec_storesBounded (s := { s with pending := rest }) h hn

end Sys2Proof.Machine
end

section
/-! The part under an asserted power-on reset (R63, R127). -/

namespace Sys2Proof.Machine

/-- Under an asserted reset an event's command answers the state as it stands (log entry 9). -/
theorem State.event_of_asserted {s : State} (f : State → State) (h : s.resetAsserted = true) :
    s.event f = .next s := by simp [State.event, h]

/-- Settles O3: the pin's command empties the part, and each other command is an event or a running effect, which an
asserted reset holds. -/
theorem assertedResetHoldsThePart : Obligations.AssertedResetHoldsThePart := by
  refine ⟨fun s => ⟨s.asserted, rfl, rfl, rfl, rfl, rfl, rfl, rfl, rfl⟩, fun c s asserted release assert => ?_⟩
  unfold exec
  cases c with
  | powerOnReset g m => exact absurd rfl (release g m)
  | powerOnResetAssert => exact absurd rfl assert
  | forwardComplete | insertionEnd | abortComplete | returnTimeoutExpiry | portBreakEnd | portTxChoice
  | portTxAbortComplete | stationFlag _ | stationAbort _ => exact State.running_of_asserted _ asserted
  | _ => exact State.event_of_asserted _ asserted

end Sys2Proof.Machine
end

section
/-! The reservations a header asks for, and a copy on the downstream line from its start to its end (R47 to R61, R70,
R77, R99 to R103). -/

namespace Sys2Proof.Machine

/-! ### Reservations at a header (R47 to R51, R101 to R103) -/

theorem Header.rewrite_eq (h : Header) (marks : Option Mark) :
    h.rewrite marks =
      { h with tally := ⟨h.tally.hops + 1, h.tally.claimed || decide (marks = some .claimed),
                         h.tally.refused || decide (marks = some .refused)⟩ } := by
  rcases marks with - | - | - <;> simp [Header.rewrite, Tally.addMark]

section
variable {s : State} {h : Header}

theorem State.transitRoom_iff (declared : Nat) :
    s.transitRoom declared = true ↔
      s.transit.length < 6 ∧ (s.transit.map (fun e => e.reservation)).sum + (8 + declared) ≤ 1280 := decide_eq_true_iff

theorem State.deliveryRoom_iff (declared : Nat) :
    s.deliveryRoom declared = true ↔
      s.port = .active ∧ s.delivery.length < 12 ∧
        (s.delivery.map (fun e => e.reservation)).sum + (1 + 8 + declared) ≤ 2048 := decide_eq_true_iff

theorem State.reserveTransit_of_room (room : s.transitRoom h.declared = true) (marks : Option Mark) :
    s.reserveTransit h marks = { s with transit := s.transit ++ [TransitEntry.start h marks] } := if_pos room

theorem State.reserveTransit_of_full (full : ¬ s.transitRoom h.declared = true) (marks : Option Mark) :
    s.reserveTransit h marks = (s.count .transitRefused).raise .transitRefused (.address h.sa) := if_neg full

theorem State.reserveDelivery_of_room (room : s.deliveryRoom h.declared = true) (label : Option Byte) :
    s.reserveDelivery h label = (.kept, { s with delivery := s.delivery ++ [DeliveryEntry.start h] }) := if_pos room

theorem State.reserveDelivery_of_full (full : ¬ s.deliveryRoom h.declared = true) (label : Option Byte) :
    s.reserveDelivery h label =
      (.refused, (s.count .deliveryRefused).raise .deliveryRefused (label.elim .none .label)) := by
  cases label <;> exact if_neg full

end

/-- Settles O17: each reservation is made exactly where there is room. -/
theorem reservationsAtTheHeader : Obligations.ReservationsAtTheHeader := by
  intro h s
  refine ⟨fun marks => ⟨fun place octets => ?_, fun full => ?_⟩,
    fun label => ⟨fun active place octets => ?_, fun full => ?_⟩⟩
  · rw [State.reserveTransit_of_room ((State.transitRoom_iff _).2 ⟨place, octets⟩), TransitEntry.start,
      Header.rewrite_eq]
  · refine State.reserveTransit_of_full (fun room => ?_) marks
    obtain ⟨place, octets⟩ := (State.transitRoom_iff _).1 room
    omega
  · exact State.reserveDelivery_of_room ((State.deliveryRoom_iff _).2 ⟨active, place, octets⟩) label
  · refine State.reserveDelivery_of_full (fun room => ?_) label
    obtain ⟨active, place, octets⟩ := (State.deliveryRoom_iff _).1 room
    rcases full with silent | full
    · rw [active] at silent
      cases silent
    · omega

/-! ### The arbiter and a copy (R55, R70) -/

section
variable {s : State} {e : TransitEntry} {es : List TransitEntry}

theorem TransitEntry.mayStart_iff (cutLead : Nat) (e : TransitEntry) :
    e.mayStart cutLead = true ↔ e.sending = .no ∧ (e.status = .good ∨ cutLead ≤ e.released) := decide_eq_true_iff

theorem State.arbitrate_of_busy (busy : s.ltx ≠ .idle) : s.arbitrate = s := if_neg busy

theorem State.arbitrate_of_head (idle : s.ltx = .idle) (ht : s.transit = e :: es) :
    s.arbitrate = if e.mayStart s.params.cutLead then
      { s with transit := { e with sending := .yes } :: es, ltx := .forwarding } else s := by
  unfold State.arbitrate
  rw [if_pos idle, ht]

/-! ### The transmitter's ends (R56, R57, R61, R77) -/

/-- A need for an octet with none left to send (R57). -/
theorem State.underrun_of_need (line : s.ltx = .forwarding) (ht : s.transit = e :: es) (sending : e.sending = .yes)
    (arriving : e.status = .arriving) (drained : e.sent = e.released) :
    s.underrun =
      { (s.count .underrun).raise .underrun (.address e.header.sa) with
        transit := { e with sending := .abandoned } :: es, ltx := .aborting } := by
  unfold State.underrun
  rw [ht]
  exact if_pos ⟨line, sending, arriving, drained⟩

theorem State.underrun_of_no_need (ht : s.transit = e :: es)
    (met : e.sending ≠ .yes ∨ e.status ≠ .arriving ∨ e.sent ≠ e.released) : s.underrun = s := by
  unfold State.underrun
  rw [ht]
  refine if_neg ?_
  rintro ⟨-, sending, arriving, drained⟩
  rcases met with no | no | no <;> contradiction

theorem State.underrun_of_not_forwarding (other : s.ltx ≠ .forwarding) : s.underrun = s := by
  unfold State.underrun
  split
  · rfl
  · exact if_neg fun h => other h.1

theorem State.completeForward_of_good (line : s.ltx = .forwarding) (ht : s.transit = e :: es)
    (sending : e.sending = .yes) (good : e.status = .good) :
    s.completeForward = { s.count .forwarded with transit := es, ltx := .idle } := by
  unfold State.completeForward
  rw [ht]
  exact if_pos ⟨line, sending, good⟩

theorem State.completeForward_of_not_good (ht : s.transit = e :: es) (arriving : e.status ≠ .good) :
    s.completeForward = s := by
  unfold State.completeForward
  rw [ht]
  exact if_neg fun ⟨_, _, good⟩ => arriving good

theorem State.completeForward_of_not_forwarding (other : s.ltx ≠ .forwarding) : s.completeForward = s := by
  unfold State.completeForward
  split
  · rfl
  · exact if_neg fun h => other h.1

theorem State.endInsertion_of_inserting {f : Inserted} (line : s.ltx = .inserting f) :
    s.endInsertion = { s.count .inserted with ltx := .idle } := by
  unfold State.endInsertion
  rw [line]

theorem State.endInsertion_of_not_inserting (other : ∀ f, s.ltx ≠ .inserting f) : s.endInsertion = s := by
  unfold State.endInsertion
  split
  · exact absurd ‹_› (other _)
  · rfl

/-! ### What the line carries (R56, R59, R60, R61, R77) -/

theorem State.loopLine_of_idle (running : s.resetAsserted = false) (line : s.ltx = .idle) : s.loopLine = .flags := by
  simp [State.loopLine, running, line]

theorem State.loopLine_of_forwarding (running : s.resetAsserted = false) (line : s.ltx = .forwarding)
    (ht : s.transit = e :: es) : s.loopLine = e.line := by
  simp [State.loopLine, running, line, ht]

theorem State.loopLine_of_inserting {f : Inserted} (running : s.resetAsserted = false) (line : s.ltx = .inserting f) :
    s.loopLine = .frame f.octets := by
  simp [State.loopLine, running, line]

theorem State.loopLine_of_aborting (running : s.resetAsserted = false) (line : s.ltx = .aborting) :
    s.loopLine = .abort := by
  simp [State.loopLine, running, line]

end

/-! ### A copy from start to end -/

/-- Octets sent after these octet times (R56). -/
def TransitEntry.sentAfter (e : TransitEntry) (times : Nat) : Nat :=
  if e.sending = .yes then e.sent + min times (e.released - e.sent) else e.sent

theorem State.octetTimes_of_head {s : State} {e : TransitEntry} {es : List TransitEntry} (line : s.ltx = .forwarding)
    (ht : s.transit = e :: es) (times : Nat) :
    s.octetTimes times = { s with transit := { e with sent := e.sentAfter times } :: es } := by
  rw [State.octetTimes_forwarding line ht, TransitEntry.sentAfter]
  split <;> rfl

section
variable {s : State} {e : TransitEntry} {es : List TransitEntry} (running : s.resetAsserted = false)
include running

theorem exec_underrun_eq (times : Nat) : exec (.underrun times) s = .next (s.octetTimes times).underrun.settle :=
  State.event_of_released (fun s => (s.octetTimes times).underrun) running

theorem exec_underrun_of_need (line : s.ltx = .forwarding) (ht : s.transit = e :: es) (times : Nat)
    (sending : e.sending = .yes) (arriving : e.status = .arriving) (drained : e.sentAfter times = e.released) :
    exec (.underrun times) s = .next
      ({ (s.count .underrun).raise .underrun (.address e.header.sa) with
        transit := { e with sending := .abandoned, sent := e.sentAfter times } :: es
        ltx := .aborting } : State).settle := by
  have begins := State.underrun_of_need (s := { s with transit := { e with sent := e.sentAfter times } :: es }) line rfl
    sending arriving drained
  rw [exec_underrun_eq running, State.octetTimes_of_head line ht, begins]
  rfl

theorem exec_underrun_of_no_need (line : s.ltx = .forwarding) (ht : s.transit = e :: es) (times : Nat)
    (met : e.sending ≠ .yes ∨ e.status ≠ .arriving ∨ e.sentAfter times ≠ e.released) :
    exec (.underrun times) s =
      .next ({ s with transit := { e with sent := e.sentAfter times } :: es } : State).settle := by
  have stays := State.underrun_of_no_need (s := { s with transit := { e with sent := e.sentAfter times } :: es }) rfl
    met
  rw [exec_underrun_eq running, State.octetTimes_of_head line ht, stays]

theorem exec_underrun_of_not_forwarding (other : s.ltx ≠ .forwarding) (times : Nat) :
    exec (.underrun times) s = .next s.settle := by
  rw [exec_underrun_eq running, State.octetTimes_of_not_forwarding other, State.underrun_of_not_forwarding other]

theorem exec_arbiterChoice_eq : exec .arbiterChoice s = .next s.arbitrate.settle := State.event_of_released _ running

theorem exec_forwardComplete_eq : exec .forwardComplete s = .next s.completeForward :=
  State.running_of_released _ running

theorem exec_insertionEnd_eq : exec .insertionEnd s = .next s.endInsertion := State.running_of_released _ running

theorem exec_abortComplete_eq : exec .abortComplete s = .next s.completeAbort := State.running_of_released _ running

/-- The arbiter's choice with a transit head (R55, R70). -/
theorem exec_arbiterChoice_of_start (idle : s.ltx = .idle) (ht : s.transit = e :: es) (waits : e.sending = .no)
    (ready : e.status = .good ∨ s.params.cutLead ≤ e.released) :
    exec .arbiterChoice s = .next
      ({ s with transit := { e with sending := .yes } :: es, ltx := .forwarding } : State).settle := by
  rw [exec_arbiterChoice_eq running, State.arbitrate_of_head idle ht,
    if_pos ((e.mayStart_iff _).2 ⟨waits, ready⟩)]

theorem exec_arbiterChoice_of_hold (idle : s.ltx = .idle) (ht : s.transit = e :: es)
    (holds : e.sending ≠ .no ∨ (e.status ≠ .good ∧ e.released < s.params.cutLead)) :
    exec .arbiterChoice s = .next s.settle := by
  rw [exec_arbiterChoice_eq running, State.arbitrate_of_head idle ht, if_neg]
  rw [e.mayStart_iff]
  rintro ⟨waits, good | enough⟩
  · rcases holds with sent | ⟨arriving, -⟩
    · exact sent waits
    · exact arriving good
  · rcases holds with sent | ⟨-, few⟩
    · exact sent waits
    · omega

theorem exec_arbiterChoice_of_busy (busy : s.ltx ≠ .idle) : exec .arbiterChoice s = .next s.settle := by
  rw [exec_arbiterChoice_eq running, State.arbitrate_of_busy busy]

end

/-- Settles O18: by the transmitter's state, and in FORWARDING by the head. -/
theorem transmitterEvents : Obligations.TransmitterEvents := by
  intro s running
  refine ⟨fun e es idle ht => ?idleHead, exec_arbiterChoice_of_busy running, fun e es ht line => ?forwarding,
    fun other => ?notForwarding, State.loopLine_of_idle running, fun f line => ?inserting,
    fun f line => State.loopLine_of_inserting running line, fun f line => State.loopLine_of_inserting running line,
    fun other => ?notInserting, fun line => ?aborting, fun other => ?notAborting⟩
  case idleHead =>
    exact ⟨exec_arbiterChoice_of_start running idle ht, exec_arbiterChoice_of_hold running idle ht⟩
  case forwarding =>
    refine ⟨fun times => ?_, State.loopLine_of_forwarding running line ht,
      fun sending => ⟨fun good => ?_, fun arriving => ?_⟩⟩
    · exact ⟨State.octetTimes_of_head line ht times, exec_underrun_of_need running line ht times,
        exec_underrun_of_no_need running line ht times⟩
    · rw [exec_forwardComplete_eq running, State.completeForward_of_good line ht sending good]
    · rw [exec_forwardComplete_eq running, State.completeForward_of_not_good ht arriving]
  case notForwarding =>
    refine ⟨fun times => ?_, ?_⟩
    · exact ⟨State.octetTimes_of_not_forwarding other times, exec_underrun_of_not_forwarding running other times⟩
    · rw [exec_forwardComplete_eq running, State.completeForward_of_not_forwarding other]
  case inserting => rw [exec_insertionEnd_eq running, State.endInsertion_of_inserting line]
  case notInserting => rw [exec_insertionEnd_eq running, State.endInsertion_of_not_inserting other]
  case aborting =>
    refine ⟨State.loopLine_of_aborting running line, ?_⟩
    rw [exec_abortComplete_eq running, State.completeAbort, if_pos line]
  case notAborting => rw [exec_abortComplete_eq running, State.completeAbort, if_neg other]

end Sys2Proof.Machine
end

section
/-! The part between events: what the end of an event leaves settled, and the commands that make nothing ready (R67,
R136, R180 to R183, R187). -/

namespace Sys2Proof.Machine

/-! ### Slots whose deadline runs (R183) -/

/-- The notice is OUTSTANDING and its deadline runs. -/
def Slot.runs (x : Slot) : Bool := x.isOutstanding && !x.resendWaits

theorem Slot.runs_iff (x : Slot) : x.runs = true ↔ x.isOutstanding = true ∧ x.resendWaits = false := by
  simp [Slot.runs]

theorem Slot.runs_of_resendDue {now : Word32} {retries : Nat} {x : Slot} (h : x.resendDue now retries = true) :
    x.runs = true := by
  obtain ⟨m, start, interval, rfl, deadline, -, -⟩ := (Slot.resendDue_iff _ _ _).1 h
  simp [Slot.runs, Slot.isOutstanding, Slot.resendWaits, deadline]

theorem Slot.resendWaits_iff (x : Slot) : x.resendWaits = true ↔ ∃ n, x = .outstanding n ∧ n.deadline = none := by
  cases x <;> simp [Slot.resendWaits]

theorem State.resent_runs (s : State) (n : OutNotice) : (s.resent n).runs = true := rfl

/-- A resend of this kind that waits is behind a higher notice whose deadline runs (log entry 5). -/
def State.Behind (s : State) (k : NoticeKind) : Prop := ∃ j, higher j k = true ∧ (s.slot j).runs = true

/-! ### The resends' turns (R182) -/

/-- A resend's turn leaves a slot as it is, or with its deadline started anew. -/
theorem State.resendOf_slot_cases (s : State) (j k : NoticeKind) :
    (s.resendOf j).slot k = s.slot k ∨ ((s.resendOf j).slot k).runs = true := by
  by_cases h : k = j
  · subst h
    unfold State.resendOf
    split
    · split
      · rw [State.resend, State.setSlot_slot]
        exact .inr (s.resent_runs _)
      · exact .inl rfl
    · exact .inl rfl
  · exact .inl (s.resendOf_slot h)

theorem State.resends_slot_cases (l : List NoticeKind) (s : State) (k : NoticeKind) :
    (l.foldl State.resendOf s).slot k = s.slot k ∨ ((l.foldl State.resendOf s).slot k).runs = true := by
  induction l generalizing s with
  | nil => exact .inl rfl
  | cons j l ih =>
    rcases ih (s.resendOf j) with same | runs
    · rw [List.foldl_cons, same]
      exact s.resendOf_slot_cases j k
    · exact .inr runs

/-- A resend that still waits waited before. -/
theorem State.resends_waits {l : List NoticeKind} {s : State} {k : NoticeKind}
    (h : ((l.foldl State.resendOf s).slot k).resendWaits = true) : (s.slot k).resendWaits = true := by
  rcases s.resends_slot_cases l k with same | runs
  · rwa [← same]
  · rw [((Slot.runs_iff _).1 runs).2] at h
    cases h

theorem State.Behind.resends {s : State} {k : NoticeKind} (l : List NoticeKind) (h : s.Behind k) :
    (l.foldl State.resendOf s).Behind k := by
  obtain ⟨j, above, runs⟩ := h
  refine ⟨j, above, ?_⟩
  rcases s.resends_slot_cases l j with same | anew
  · rwa [same]
  · exact anew

theorem State.resends_own (l : List NoticeKind) (s : State) : s.own.length ≤ (l.foldl State.resendOf s).own.length := by
  induction l generalizing s with
  | nil => exact Nat.le_refl _
  | cons k l ih => exact (s.resendOf_own k).trans (ih _)

theorem State.resendOf_destSet (s : State) (k : NoticeKind) : (s.resendOf k).destSet = s.destSet := by
  obtain ⟨_, _, e⟩ := s.resendOf_frame k
  rw [e]
  rfl

theorem State.resends_destSet (l : List NoticeKind) (s : State) : (l.foldl State.resendOf s).destSet = s.destSet := by
  induction l generalizing s with
  | nil => rfl
  | cons k l ih => exact (ih _).trans (s.resendOf_destSet k)

/-- A resend that waits after its turn, with NOTICE_DEST set and a place free, yields to a higher one due in the same
millisecond. -/
theorem State.resendOf_behind {s : State} {k : NoticeKind} (dest : s.destSet = true) (place : s.ownPlace = true)
    (waits : ((s.resendOf k).slot k).resendWaits = true) : s.Behind k := by
  obtain ⟨n, hn, due⟩ := (Slot.resendWaits_iff _).1 (State.resends_waits (l := [k]) waits)
  have held : s.resendPlace k = false := by
    rw [← Bool.not_eq_true]
    intro given
    rw [State.resendOf_place hn due given, State.resend, State.setSlot_slot] at waits
    cases waits
  rw [State.resendPlace, dest, place, Bool.true_and, Bool.true_and] at held
  obtain ⟨j, -, hj⟩ := List.all_eq_false.1 held
  simp only [Bool.not_eq_true, Bool.not_eq_false', Bool.and_eq_true] at hj
  exact ⟨j, hj.1, Slot.runs_of_resendDue hj.2⟩

theorem State.resends_behind {l : List NoticeKind} {s : State} {k : NoticeKind} (turn : k ∈ l) (dest : s.destSet = true)
    (place : (l.foldl State.resendOf s).own.length < Config.ownFrames)
    (waits : ((l.foldl State.resendOf s).slot k).resendWaits = true) : (l.foldl State.resendOf s).Behind k := by
  induction l generalizing s with
  | nil => cases turn
  | cons j l ih =>
    rcases List.mem_cons.1 turn with rfl | later
    · have free : s.ownPlace = true := decide_eq_true (Nat.lt_of_le_of_lt (s.resends_own (k :: l)) place)
      exact (State.resendOf_behind dest free (State.resends_waits waits)).resends (k :: l)
    · exact ih later ((s.resendOf_destSet j).trans dest) place waits

/-! ### The end of an event -/

/-- Whatever came before it, the end of an event leaves the part settled (R136, R182). -/
theorem State.settle_settled (s : State) : Settled s.settle := by
  unfold State.settle
  refine ⟨State.placeNotices_readyHead s.engine_readyHead, fun sendable => ?_, fun dest place k waits => ?_⟩
  · rcases State.sendable_or_place s.engine.placeNotices_sendFirst with none | full
    · exact absurd none sendable
    · exact Nat.le_of_not_lt (of_decide_eq_false full)
  · rw [State.placeNotices, State.resendWaiting] at *
    rw [State.resends_destSet] at dest
    obtain ⟨j, above, runs⟩ := State.resends_behind (mem_noticeKinds k) dest place waits
    exact ⟨j, above, (Slot.runs_iff _).1 runs⟩

/-! ### Commands that make nothing ready -/

/-- All of the state that decides whether something stands ready. -/
def State.readyPart (s : State) := (s.requests, s.own, s.replies, s.params, s.slots)

theorem Settled.congr {s t : State} (h : Settled s) (same : t.readyPart = s.readyPart) : Settled t := by
  cases s
  cases t
  simp only [State.readyPart, Prod.mk.injEq] at same
  obtain ⟨rfl, rfl, rfl, rfl, rfl⟩ := same
  exact h

theorem State.causeStatus_readyPart (s : State) : s.causeStatus.readyPart = s.readyPart := by
  obtain ⟨_, _, e⟩ := s.causeStatus_frame
  rw [e]
  rfl

theorem State.endBreak_readyPart (s : State) : s.endBreak.readyPart = s.readyPart := by
  unfold State.endBreak
  split
  · exact State.causeStatus_readyPart _
  · rfl

theorem State.completeForward_readyPart (s : State) : s.completeForward.readyPart = s.readyPart := by
  obtain ⟨_, _, _, e⟩ := s.completeForward_frame
  rw [e]
  rfl

theorem State.portChoice_readyPart (s : State) : s.portChoice.readyPart = s.readyPart := by
  obtain ⟨_, _, _, _, _, e⟩ := s.portChoice_frame
  rw [e]
  rfl

theorem State.endInsertion_readyPart (s : State) : s.endInsertion.readyPart = s.readyPart := by
  unfold State.endInsertion
  split <;> rfl

theorem State.completeAbort_readyPart (s : State) : s.completeAbort.readyPart = s.readyPart := by
  unfold State.completeAbort
  split <;> rfl

theorem State.portAbortSent_readyPart (s : State) : s.portAbortSent.readyPart = s.readyPart := by
  unfold State.portAbortSent
  split <;> rfl

theorem State.stationFlag_readyPart (s : State) : s.stationFlag.readyPart = s.readyPart := by
  unfold State.stationFlag
  split <;> rfl

theorem State.stationAbort_readyPart (s : State) (idle : Bool) : (s.stationAbort idle).readyPart = s.readyPart := by
  unfold State.stationAbort
  split <;> rfl

theorem State.tick_readyPart (s : State) : s.tick.readyPart = s.readyPart := by
  unfold State.tick
  split <;> rfl

theorem settled_of_quiet {s : State} (requests : s.requests = []) (dest : s.params.noticeDest = Address.unset) :
    Settled s := by
  have unset : s.destSet = false := decide_eq_false (not_not_intro dest)
  refine ⟨by rw [State.readyHead, requests], fun sendable => ?_, fun set => ?_⟩
  · obtain ⟨k, hk⟩ := Option.ne_none_iff_exists'.1 sendable
    obtain ⟨-, -, set, -⟩ := (s.sendable_eq_some k).1 hk
    exact absurd dest set
  · rw [unset] at set
    cases set

/-- An event's command ends settled whatever its effect; the others make nothing ready. -/
theorem exec_settled {c : Instr} {s t : State} (h : Settled s) (hn : exec c s = .next t) : Settled t := by
  have event : ∀ {f : State → State}, s.event f = .next t → Settled t := by
    intro f hn
    rcases State.event_next hn with ⟨-, same⟩ | ⟨-, same⟩ <;> rw [same]
    · exact h
    · exact State.settle_settled _
  have running : ∀ {f : State → State}, s.running f = .next t → (f s).readyPart = s.readyPart → Settled t := by
    intro f hn same
    rcases State.running_next hn with ⟨-, ends⟩ | ⟨-, ends⟩ <;> rw [ends]
    · exact h
    · exact h.congr same
  unfold exec at hn
  cases c with
  | powerOnReset g m =>
    obtain rfl := Host.Outcome.next.inj hn
    exact settled_of_quiet rfl rfl
  | powerOnResetAssert =>
    obtain rfl := Host.Outcome.next.inj hn
    exact settled_of_quiet rfl rfl
  | forwardComplete => exact running hn s.completeForward_readyPart
  | insertionEnd => exact running hn s.endInsertion_readyPart
  | abortComplete => exact running hn s.completeAbort_readyPart
  | returnTimeoutExpiry => exact running hn rfl
  | portBreakEnd => exact running hn s.endBreak_readyPart
  | portTxChoice => exact running hn s.portChoice_readyPart
  | portTxAbortComplete => exact running hn s.portAbortSent_readyPart
  | stationFlag tail => exact running hn s.stationFlag_readyPart
  | stationAbort idle => exact running hn (s.stationAbort_readyPart idle)
  | _ => exact event hn

/-- Settles O57: every event ends settled, and a millisecond makes nothing ready. -/
theorem stepKeepsSettled : Obligations.StepKeepsSettled := by
  intro s t h hn
  unfold step at hn
  split at hn
  · obtain rfl := Host.Outcome.next.inj hn
    exact h.congr s.tick_readyPart
  · rename_i c rest _
    exact exec_settled (s := { s with pending := rest }) h hn

end Sys2Proof.Machine
end

section
/-! The insertion arbiter with no transit entry: gates, order, fairness, and what each start leaves (R69 to R76, R83,
R84, R123). -/

namespace Sys2Proof.Machine

section
variable {s : State}

/-! ### Gates (R71, R74) -/

theorem State.logGate_iff (s : State) : s.logGate = true ↔ s.log.length < 16 := decide_eq_true_iff

theorem State.budgetGate_iff (s : State) : s.budgetGate = true ↔ s.budget < 16 := decide_eq_true_iff

theorem State.fairnessExcepts_iff (s : State) :
    s.fairnessExcepts = true ↔ s.normal ≠ [] ∧ s.params.normalFair ≤ s.fairness := decide_eq_true_iff

/-! ### Candidates (R71, R72) -/

theorem State.tryOwn_of_gate {f : OwnFrame} {rest : List OwnFrame} (queue : s.own = f :: rest)
    (gate : s.logGate = true) :
    s.tryOwn = some (s.startOwn f rest) := by
  rw [State.tryOwn, queue]
  exact if_pos gate

theorem State.tryUrgent_of_gates {f : StationFrame} {rest : List StationFrame} (queue : s.urgent = f :: rest)
    (log : s.logGate = true) (budget : s.budgetGate = true) : s.tryUrgent = some (s.startUrgent f rest) := by
  rw [State.tryUrgent, queue]
  exact if_pos (by rw [log, budget]; rfl)

theorem State.tryNormal_of_gates {f : StationFrame} {rest : List StationFrame} (queue : s.normal = f :: rest)
    (log : s.logGate = true) (budget : s.budgetGate = true) : s.tryNormal = some (s.startNormal f rest) := by
  rw [State.tryNormal, queue]
  exact if_pos (by rw [log, budget]; rfl)

theorem State.tryOwn_eq_none (h : s.own = [] ∨ s.logGate = false) : s.tryOwn = none := by
  unfold State.tryOwn
  rcases h with empty | shut
  · rw [empty]
  · split
    · exact if_neg (by simp [shut])
    · rfl

theorem State.tryUrgent_eq_none (h : s.urgent = [] ∨ s.logGate = false ∨ s.budgetGate = false) :
    s.tryUrgent = none := by
  unfold State.tryUrgent
  rcases h with empty | shut
  · rw [empty]
  · split
    · exact if_neg (by rcases shut with h | h <;> simp [h])
    · rfl

theorem State.tryNormal_eq_none (h : s.normal = [] ∨ s.logGate = false ∨ s.budgetGate = false) :
    s.tryNormal = none := by
  unfold State.tryNormal
  rcases h with empty | shut
  · rw [empty]
  · split
    · exact if_neg (by rcases shut with h | h <;> simp [h])
    · rfl

/-! ### The choice (R72, R74) -/

/-- The own output head goes first, but where the fairness exception lets a NORMAL head through. -/
theorem State.insert_own {f : OwnFrame} {rest : List OwnFrame} (queue : s.own = f :: rest) (log : s.logGate = true)
    (first : s.fairnessExcepts = false ∨ s.budgetGate = false) : s.insert = s.startOwn f rest := by
  unfold State.insert
  rw [State.tryOwn_of_gate queue log]
  split
  · rename_i excepts
    rcases first with no | shut
    · rw [excepts] at no
      cases no
    · rw [State.tryNormal_eq_none (.inr (.inr shut))]
      rfl
  · rfl

/-- The URGENT head goes where the own output queue is empty and the fairness exception does not apply. -/
theorem State.insert_urgent {f : StationFrame} {rest : List StationFrame} (own : s.own = [])
    (queue : s.urgent = f :: rest) (log : s.logGate = true) (budget : s.budgetGate = true)
    (ordinary : s.fairnessExcepts = false) : s.insert = s.startUrgent f rest := by
  unfold State.insert
  rw [ordinary, State.tryOwn_eq_none (.inl own), State.tryUrgent_of_gates queue log budget]
  rfl

/-- The NORMAL head goes by the fairness exception, or with the other queues empty. -/
theorem State.insert_normal {f : StationFrame} {rest : List StationFrame} (queue : s.normal = f :: rest)
    (log : s.logGate = true) (budget : s.budgetGate = true)
    (turn : s.fairnessExcepts = true ∨ (s.own = [] ∧ s.urgent = [])) : s.insert = s.startNormal f rest := by
  unfold State.insert
  rw [State.tryNormal_of_gates queue log budget]
  split
  · rfl
  · rcases turn with excepts | ⟨own, urgent⟩
    · contradiction
    · rw [State.tryOwn_eq_none (.inl own), State.tryUrgent_eq_none (.inl urgent)]
      rfl

theorem State.insert_of_none (own : s.tryOwn = none) (urgent : s.tryUrgent = none) (normal : s.tryNormal = none) :
    s.insert = s := by
  unfold State.insert
  rw [own, urgent, normal]
  split <;> rfl

theorem exec_arbiterChoice_of_insert (running : s.resetAsserted = false) (idle : s.ltx = .idle)
    (noTransit : s.transit = []) :
    exec .arbiterChoice s = .next s.insert.settle := by
  rw [exec_arbiterChoice_eq running, State.arbitrate, if_pos idle, noTransit]

end

/-- Settles O19: the choice by gates, order and fairness, and each start written out. -/
theorem insertionOrder : Obligations.InsertionOrder := by
  intro s running idle noTransit excepts entry counted becomes
  have chosen : ∀ {t}, s.insert = t → becomes t := by
    intro t h
    rw [← h]
    exact exec_arbiterChoice_of_insert running idle noTransit
  have ordinary : ¬ excepts → s.fairnessExcepts = false := fun no => decide_eq_false no
  have excepted : excepts → s.fairnessExcepts = true := s.fairnessExcepts_iff.2
  have shut : 16 ≤ s.budget → s.budgetGate = false := fun used => decide_eq_false (Nat.not_lt.2 used)
  refine ⟨fun full => ?full, fun f rest log queue first => ?own, fun f rest log budget own no queue => ?urgent,
    fun f rest log budget turn queue => ?normal, fun own used => ?budget, fun own urgent normal => ?empty⟩
  case full =>
    have closed : s.logGate = false := decide_eq_false (Nat.not_lt.2 full)
    exact chosen (State.insert_of_none (State.tryOwn_eq_none (.inr closed))
      (State.tryUrgent_eq_none (.inr (.inl closed))) (State.tryNormal_eq_none (.inr (.inl closed))))
  case own => exact chosen (State.insert_own queue (s.logGate_iff.2 log) (first.imp ordinary shut))
  case urgent =>
    exact chosen (State.insert_urgent own queue (s.logGate_iff.2 log) (s.budgetGate_iff.2 budget) (ordinary no))
  case normal =>
    exact chosen
      (State.insert_normal queue (s.logGate_iff.2 log) (s.budgetGate_iff.2 budget) (turn.imp_left excepted))
  case budget =>
    exact chosen (State.insert_of_none (State.tryOwn_eq_none (.inl own))
      (State.tryUrgent_eq_none (.inr (.inr (shut used)))) (State.tryNormal_eq_none (.inr (.inr (shut used)))))
  case empty =>
    exact chosen (State.insert_of_none (State.tryOwn_eq_none (.inl own)) (State.tryUrgent_eq_none (.inl urgent))
      (State.tryNormal_eq_none (.inl normal)))

end Sys2Proof.Machine
end

section
/-! The first send of a notice, and the end of an event that makes none (R180 to R182, R186). -/

namespace Sys2Proof.Machine

theorem Detail.octets_length (d : Detail) : d.octets.length = 5 := by cases d <;> rfl

theorem State.noticeBody_length (s : State) (k : NoticeKind) (seq : Byte) (occ : Nat) (d : Detail) :
    (s.noticeBody k seq occ d).length = 13 := by
  simp [State.noticeBody, be32, d.octets_length]

theorem State.ownPlace_iff (s : State) : s.ownPlace = true ↔ s.own.length < 6 := decide_eq_true_iff

section
variable {s : State}

/-- A sendable slot with a place gets its frame, its OUTSTANDING slot and the next sequence (R181). -/
theorem State.sendFirst_of_place {k : NoticeKind} {occ : Nat} {d : Detail} (sendable : s.sendable = some k)
    (pending : s.slot k = .pending occ d) (place : s.ownPlace = true) :
    s.sendFirst =
      { s with
        own := s.own ++
          [⟨⟨s.params.noticeDest, s.strapped, 0x04, ⟨0, false, false⟩, 13⟩,
            [oct (noticeCode k), s.noticeSeq, oct occ, s.epoch] ++ be32 s.timer ++ d.octets⟩]
        slots := s.slots.set (noticeCode k)
          (.outstanding ⟨occ, 0, s.noticeSeq, 1, some (s.timer, s.params.noticeRetry), d⟩)
        noticeSeq := s.noticeSeq + 1 } := by
  rw [State.sendFirst, sendable]
  simp only [place, if_true]
  rw [State.firstSend, pending]
  simp only [State.placeNotice, State.ownFrame, State.noticeBody_length]
  rfl

theorem State.sendFirst_of_full (full : ¬ s.ownPlace = true) : s.sendFirst = s := by
  unfold State.sendFirst
  split
  · exact if_neg full
  · rfl

/-- The resends leave a PENDING slot and the notice sequence as they are. -/
theorem State.resendWaiting_slot_of_pending {k : NoticeKind} {occ : Nat} {d : Detail}
    (pending : s.slot k = .pending occ d) :
    s.resendWaiting.slot k = .pending occ d := by
  have stays := (s.resendWaiting_slot_kind k).2
  rw [pending] at stays
  rcases s.resends_slot_cases noticeKinds k with same | anew
  · exact same.trans pending
  · rw [State.resendWaiting, ((Slot.runs_iff _).1 anew).1] at stays
    cases stays

theorem State.resendWaiting_noticeSeq (s : State) : s.resendWaiting.noticeSeq = s.noticeSeq := by
  obtain ⟨_, _, e⟩ := s.resendWaiting_frame
  rw [e]

/-- With NOTICE_DEST unset, nothing PENDING, or an OUTSTANDING slot at or above every PENDING one, nothing is
sendable (R180). -/
theorem State.sendable_eq_none
    (h : s.params.noticeDest = ⟨0, 0⟩ ∨ (∀ k, (s.slot k).isPending = false) ∨
      ∃ j n, s.slot j = .outstanding n ∧ ∀ k, (s.slot k).isPending = true → (noticeCode k).val ≤ (noticeCode j).val) :
    s.sendable = none := by
  rw [Option.eq_none_iff_forall_ne_some]
  intro k hk
  obtain ⟨pending, -, dest, above⟩ := (s.sendable_eq_some k).1 hk
  rcases h with unset | idle | ⟨j, n, outstanding, least⟩
  · exact dest unset
  · rw [idle k] at pending
    cases pending
  · have := above j (by rw [outstanding]; rfl)
    have := least k pending
    omega

/-- NOTICE_FIRST_SEND is the end of the event: the engine and the first send are its own beginning (log entries 2
and 4). -/
theorem exec_noticeFirstSend (running : s.resetAsserted = false) : exec .noticeFirstSend s = .next s.settle := by
  have effect : exec .noticeFirstSend s = .next s.engine.sendFirst.settle :=
    State.event_of_released (fun s => s.engine.sendFirst) running
  rw [effect, State.settle_sendFirst s.engine_readyHead, s.settle_engine]

end

/-- Settles O31: the end of an event makes the first send at once, where there is one to make. -/
theorem firstSendIsHighest : Obligations.FirstSendIsHighest := by
  intro s running
  refine ⟨fun k occ d waits pending highest above dest place => ?first, fun waits held => ?held, fun r ready => ?ready,
    exec_noticeFirstSend running⟩
  case first =>
    have sendable : s.sendable = some k := by
      refine (s.sendable_eq_some k).2 ⟨by rw [pending]; rfl, fun j hj => ?_, dest, fun j hj => ?_⟩
      · obtain ⟨o, x, hj⟩ := (Slot.isPending_iff _).1 hj
        exact highest j o x hj
      · obtain ⟨n, hj⟩ := (Slot.isOutstanding_iff _).1 hj
        exact above j n hj
    have ends := State.settle_sendFirst waits
    rw [State.sendFirst_of_place sendable pending (s.ownPlace_iff.2 place)] at ends
    exact ⟨ends.symm, (exec_noticeFirstSend running).trans (congrArg _ ends.symm)⟩
  case held =>
    have none_sent : s.sendFirst = s := by
      rcases held with unset | full | behind
      · exact State.sendFirst_of_none (State.sendable_eq_none (.inl unset))
      · exact State.sendFirst_of_full fun place => absurd (s.ownPlace_iff.1 place) (Nat.not_lt.2 full)
      · exact State.sendFirst_of_none (State.sendable_eq_none (.inr behind))
    rw [State.settle_of_none waits, State.placeNotices, none_sent]
    exact ⟨s.resendWaiting_noticeSeq, fun k occ d => State.resendWaiting_slot_of_pending⟩
  case ready => rw [exec_noticeFirstSend running, State.settle_of_some ready]

end Sys2Proof.Machine
end

section
/-! Requests without a known command, and how a reply is built and placed (R66, R137, R140, R190). -/

namespace Sys2Proof.Machine

/-- A code that is no command's (8.3). -/
theorem Command.ofOctet_eq_none {code : Byte}
    (h : code ∉ [0x01, 0x02, 0x03, 0x04, 0x05, 0x06, 0x07, 0x10, 0x11, 0x12, 0x13, 0x14, 0x15, 0x20, 0x30]) :
    Command.ofOctet code = none := by
  refine List.find?_eq_none.2 fun c hc => ?_
  rw [decide_eq_true_iff]
  rintro rfl
  exact h (List.mem_map_of_mem (f := Command.octet) hc)

theorem Request.command_of_short {r : Request} (h : r.octets.length < 2) : r.command = none := if_pos h

theorem Request.command_of_octets {r : Request} {tag code : Byte} {rest : List Byte}
    (h : r.octets = tag :: code :: rest) :
    r.command = Command.ofOctet code := by
  simp [Request.command, Request.commandOctet, h]

/-- BAD_COMMAND answers a ready head with no known command (R137). -/
theorem exec_badCommand_of_unknown {s : State} {r : Request} (running : s.resetAsserted = false)
    (ready : s.readyHead = some r) (unknown : r.command = none) :
    exec .badCommand s = .next (s.reply r ⟨.badCommand, []⟩).settle := by
  have effect : exec .badCommand s = .next (s.serve none State.runBadCommand).settle :=
    State.event_of_released (fun s => s.serve none State.runBadCommand) running
  have served : s.serve none State.runBadCommand = s.reply r ⟨.badCommand, []⟩ := by
    rw [State.serve, ready]
    exact if_pos unknown
  rw [effect, served]

theorem State.replyBody_length (s : State) (r : Request) (a : Answer) :
    (s.replyBody r a).length = 4 + a.data.length := by
  simp only [State.replyBody, List.length_append, List.length_cons, List.length_nil]

/-- Settles O34: a code outside the table names no command, and the reply goes by the request's source. -/
theorem badCommandAndReply : Obligations.BadCommandAndReply := by
  refine ⟨fun s r running ready request => ?bad, rfl, fun s r a => ⟨fun sa loop => ?loop, fun tag station => ?station⟩⟩
  case bad =>
    refine exec_badCommand_of_unknown running ready ?_
    rcases request with short | ⟨tag, code, rest, octets, unknown⟩
    · exact Request.command_of_short short
    · rw [Request.command_of_octets octets, Command.ofOctet_eq_none unknown]
  case loop =>
    simp only [State.reply, loop, State.ownFrame, State.replyBody_length, List.drop_one]
    rfl
  case station =>
    simp only [State.reply, station, List.drop_one]
    rfl

end Sys2Proof.Machine
end

section
/-! The sequence that an insertion takes (R84). -/

namespace Sys2Proof.Machine

/-- Sixteen sequences in a row from the counter are sixteen values: fewer entries leave one of them free. -/
theorem exists_free_sequence (counter : Byte) {log : List LogEntry} (room : log.length < 16) :
    ∃ k < 16, counter + BitVec.ofNat 8 k ∉ log.map (fun e => e.seq) := by
  by_contra taken
  push Not at taken
  have nodup : ((List.range 16).map (fun k => counter + BitVec.ofNat 8 k)).Nodup := by
    refine List.nodup_range.map_on fun j hj k hk same => ?_
    rw [List.mem_range] at hj hk
    bv_omega
  have held : (List.range 16).map (fun k => counter + BitVec.ofNat 8 k) ⊆ log.map (fun e => e.seq) := by
    intro v hv
    obtain ⟨k, hk, rfl⟩ := List.mem_map.1 hv
    exact taken k (List.mem_range.1 hk)
  have fits := (List.subperm_of_subset nodup held).length_le
  simp only [List.length_map, List.length_range] at fits
  omega

/-- The search for a free sequence finds the first one. -/
theorem nextSeq_of_room (counter : Byte) {log : List LogEntry} (room : log.length < 16) :
    ∃ k < 16, nextSeq counter log = counter + BitVec.ofNat 8 k ∧ nextSeq counter log ∉ log.map (fun e => e.seq) ∧
      ∀ j < k, counter + BitVec.ofNat 8 j ∈ log.map (fun e => e.seq) := by
  obtain ⟨free, small, unused⟩ := exists_free_sequence counter room
  unfold nextSeq
  rw [List.find?_map]
  cases found : (List.range Config.logEntries).find?
      ((fun v => decide (v ∉ log.map (fun e => e.seq))) ∘ fun k => counter + BitVec.ofNat 8 k) with
  | none =>
    rw [List.find?_range_eq_none] at found
    exact absurd (found free small) (by simpa using unused)
  | some k =>
    rw [List.find?_range_eq_some] at found
    obtain ⟨isFree, inRange, before⟩ := found
    exact ⟨k, List.mem_range.1 inRange, rfl, of_decide_eq_true isFree, fun j hj => by simpa using before j hj⟩

/-- Settles O20: the first free sequence is found among sixteen. -/
theorem nextSequenceIsFirstFree : Obligations.NextSequenceIsFirstFree := by
  intro counter log room
  obtain ⟨k, small, next, free, before⟩ := nextSeq_of_room counter room
  refine ⟨k, small, next, fun e he same => free (same ▸ List.mem_map_of_mem he), fun j hj => ?_⟩
  obtain ⟨e, he, same⟩ := List.mem_map.1 (before j hj)
  exact ⟨e, he, same⟩

end Sys2Proof.Machine
end

section
/-! SUPPORT. The return log, the completion budget and the report queue in one account: entries that close move their
place in the budget to a COMPLETION, shared records join only where they are admitted (R82, R94, R122, R123). -/

namespace Sys2Proof.Machine

/-! ### The account -/

/-- The bounds of a return log, of a report queue, and of both together; `held` says that a PORT STATUS is held. -/
structure AccountSound (log : List LogEntry) (reports : List Report) (held : Bool) : Prop where
  entries : log.length ≤ 16
  sequences : (log.map (fun e => e.seq)).Nodup
  budget : log.countP (fun e => e.reports) + reports.countP (fun r => r.isCompletion) ≤ 16
  shared : reports.countP (fun r => !r.isCompletion) ≤ 8
  waiting : reports.countP (fun r => r.isWaitingStatus) + (if held then 1 else 0) ≤ 1
  full : held = true → reports.countP (fun r => !r.isCompletion) = 8

/-- The state's log and report queue. It reads nothing else. -/
abbrev State.Accounts (s : State) : Prop := AccountSound s.log s.reports s.statusHeld

theorem State.budget_eq_countP (s : State) :
    s.budget = s.log.countP (fun e => e.reports) + s.reports.countP (fun r => r.isCompletion) := by
  rw [State.budget, List.countP_eq_length_filter, List.countP_eq_length_filter]

theorem State.sharedRecords_eq_countP (s : State) :
    s.sharedRecords = s.reports.countP (fun r => !r.isCompletion) := List.countP_eq_length_filter.symm

/-- The 24 records are the 8 shared places and the budget's 16 (R122). -/
theorem State.accounts_iff (s : State) : s.Accounts ↔ LogBounded s ∧ ReportsBounded s := by
  have parts : s.reports.length =
      s.reports.countP (fun r => r.isCompletion) + s.reports.countP (fun r => !r.isCompletion) := by
    rw [List.length_eq_countP_add_countP (fun r : Report => r.isCompletion)]
    simp only [Bool.not_eq_true, Bool.decide_eq_false]
  simp only [LogBounded, ReportsBounded, State.sharedRecords_eq_countP, State.budget_eq_countP,
    ← List.countP_eq_length_filter]
  constructor
  · rintro ⟨entries, sequences, budget, shared, waiting, full⟩
    exact ⟨⟨entries, sequences, budget⟩, by omega, shared, waiting, full⟩
  · rintro ⟨⟨entries, sequences, budget⟩, -, shared, waiting, full⟩
    exact ⟨entries, sequences, budget, shared, waiting, full⟩

/-! ### Records that join (R121 to R123, R179) -/

/-- A shared record that is no waiting PORT STATUS joins where the queue admits it. -/
theorem State.Accounts.join {s : State} (h : s.Accounts) (room : s.admitsShared = true) {r : Report}
    (shared : r.isCompletion = false) (other : r.isWaitingStatus = false) :
    AccountSound s.log (s.reports ++ [r]) s.statusHeld := by
  have room := of_decide_eq_true room
  rw [State.sharedRecords_eq_countP, Config.sharedPlaces] at room
  have completions : (s.reports ++ [r]).countP (fun r => r.isCompletion) =
      s.reports.countP (fun r => r.isCompletion) := by simp [shared]
  have records : (s.reports ++ [r]).countP (fun r => !r.isCompletion) =
      s.reports.countP (fun r => !r.isCompletion) + 1 := by simp [shared]
  have waits : (s.reports ++ [r]).countP (fun r => r.isWaitingStatus) =
      s.reports.countP (fun r => r.isWaitingStatus) := by simp [other]
  obtain ⟨entries, sequences, budget, -, waiting, full⟩ := h
  refine ⟨entries, sequences, completions ▸ budget, by omega, waits ▸ waiting, fun held => ?_⟩
  have := full held
  rw [if_pos held] at room
  omega

theorem State.statusWaits_eq_false_iff (s : State) :
    s.statusWaits = false ↔ s.statusHeld = false ∧ s.reports.countP (fun r => r.isWaitingStatus) = 0 := by
  rw [State.statusWaits, Bool.or_eq_false_iff, List.any_eq_false, List.countP_eq_zero]

/-- A PORT STATUS that none precedes takes a place, or is held for one (R123). -/
theorem State.causeStatus_accounts {s : State} (h : s.Accounts) : s.causeStatus.Accounts := by
  unfold State.causeStatus
  split
  · rename_i cause
    obtain ⟨held, none⟩ := s.statusWaits_eq_false_iff.1 (Bool.eq_false_iff.2 cause.2)
    obtain ⟨entries, sequences, budget, shared, -, -⟩ := h
    have count := s.sharedRecords_eq_countP
    split
    · rename_i room
      rw [count] at room
      refine ⟨entries, sequences, ?_, ?_, ?_, fun h => absurd (held.symm.trans h) (by decide)⟩
      · simpa [Report.isCompletion] using budget
      · simpa [Report.isCompletion] using room
      · rw [List.countP_append, none, held]
        decide
    · rename_i noRoom
      rw [count, Config.sharedPlaces] at noRoom
      exact ⟨entries, sequences, budget, shared, by simp [none], fun _ => by dsimp only; omega⟩
  · exact h

theorem State.discard_accounts {s : State} (h : s.Accounts) : s.discard.Accounts :=
  State.causeStatus_accounts (s := { s.count .portDiscarded with discarded := saturate (s.discarded + 1) }) h

theorem State.refuse_accounts {s : State} (h : s.Accounts) (tag : Tag) (cls : StationClass) (reason : Reason) :
    (s.refuse tag cls reason).Accounts := by
  unfold State.refuse
  split
  · exact h.join ‹_› rfl rfl
  · exact State.discard_accounts h

theorem State.raise_accounts {s : State} (h : s.Accounts) (k : NoticeKind) (d : Detail) : (s.raise k d).Accounts := by
  have copied : AccountSound s.log (s.reports ++ s.copiesOf k d) s.statusHeld := by
    unfold State.copiesOf
    split
    · rename_i offered
      obtain ⟨-, -, -, room⟩ := offered
      exact h.join room rfl rfl
    · rwa [List.append_nil]
  exact copied

/-! ### Entries that close (R85, R87, R89 to R94, R97) -/

theorem LogEntry.completion?_of_reports {e : LogEntry} {o : Closing} {r : Report} (h : e.completion? o = some r) :
    e.reports = true ∧ r.isCompletion = true ∧ r.isWaitingStatus = false := by
  unfold LogEntry.completion? at h
  split at h
  · rename_i origin silent
    obtain rfl := Option.some.inj h
    simp [LogEntry.reports, origin, silent, Report.isCompletion, Report.isWaitingStatus]
  · cases h

/-- Each COMPLETION placed is that of an entry that closes and counts in the budget. -/
theorem State.completionsOf_length_le (s : State) (o : Closing) (es : List LogEntry) :
    (s.completionsOf o es).length ≤ es.countP (fun e => e.reports) := by
  unfold State.completionsOf
  split
  · rw [List.length_filterMap_eq_countP]
    refine List.countP_mono_left fun e _ placed => ?_
    obtain ⟨r, hr⟩ := Option.isSome_iff_exists.1 placed
    exact (LogEntry.completion?_of_reports hr).1
  · exact Nat.zero_le _

theorem State.mem_completionsOf {s : State} {o : Closing} {es : List LogEntry} {r : Report}
    (h : r ∈ s.completionsOf o es) : r.isCompletion = true ∧ r.isWaitingStatus = false := by
  unfold State.completionsOf at h
  split at h
  · obtain ⟨e, -, hr⟩ := List.mem_filterMap.1 h
    exact (LogEntry.completion?_of_reports hr).2
  · cases h

/-- Entries leave the log, and their COMPLETIONs take the places in the budget that they free. -/
theorem AccountSound.close {log left closed : List LogEntry} {reports : List Report} {held : Bool}
    (h : AccountSound log reports held) (sub : (left.map (fun e => e.seq)).Sublist (log.map (fun e => e.seq)))
    (balance : closed.countP (fun e => e.reports) + left.countP (fun e => e.reports) ≤ log.countP (fun e => e.reports))
    (s : State) (o : Closing) : AccountSound left (reports ++ s.completionsOf o closed) held := by
  have placed := s.completionsOf_length_le o closed
  have counted : (s.completionsOf o closed).countP (fun r => r.isCompletion) ≤ (s.completionsOf o closed).length :=
    List.countP_le_length
  have noShared : (s.completionsOf o closed).countP (fun r => !r.isCompletion) = 0 :=
    List.countP_eq_zero.2 fun r hr => by simp [(State.mem_completionsOf hr).1]
  have noStatus : (s.completionsOf o closed).countP (fun r => r.isWaitingStatus) = 0 :=
    List.countP_eq_zero.2 fun r hr => by simp [(State.mem_completionsOf hr).2]
  have fewer := sub.length_le
  rw [List.length_map, List.length_map] at fewer
  obtain ⟨entries, sequences, budget, shared, waiting, full⟩ := h
  refine ⟨by omega, sequences.sublist sub, ?_, ?_, ?_, ?_⟩
  · rw [List.countP_append]
    omega
  · rwa [List.countP_append, noShared]
  · rwa [List.countP_append, noStatus]
  · rwa [List.countP_append, noShared]

theorem State.stripHeader_accounts {s : State} (h : s.Accounts) (hd : Header) : (s.stripHeader hd).Accounts := by
  unfold State.stripHeader
  split
  · exact h
  · rename_i older e newer found
    have all := splitMatch_some found
    refine AccountSound.close (s := s.countN .lost _) h ?_ ?_ .lost
    · rw [all, List.map_append, List.map_append]
      exact (List.filter_sublist.map _).append (.refl _)
    · have parts := List.countP_eq_countP_filter_add older (fun e => e.reports) (fun x => x.isOutstanding)
      have matched : ({ e with state := .returning hd.tally } : LogEntry).reports = e.reports := rfl
      rw [all, List.countP_append, List.countP_append, List.countP_cons, List.countP_cons, matched, parts]
      omega

/-- An expired entry and one that stays were both in the log, in its order (R91). -/
theorem splitExpired_parts (now : Word32) (timeout : Nat) (log : List LogEntry) :
    (splitExpired now timeout log).2.Sublist log ∧
      ∀ p : LogEntry → Bool,
        (splitExpired now timeout log).1.countP p + (splitExpired now timeout log).2.countP p = log.countP p := by
  induction log with
  | nil => exact ⟨.refl _, fun _ => rfl⟩
  | cons e es ih =>
    obtain ⟨sub, count⟩ := ih
    unfold splitExpired
    split
    · split
      · refine ⟨sub.cons _, fun p => ?_⟩
        have := count p
        simp only [List.countP_cons]
        omega
      · exact ⟨.refl _, fun p => by simp⟩
    · refine ⟨sub.cons_cons _, fun p => ?_⟩
      have := count p
      simp only [List.countP_cons]
      omega

theorem State.expireLog_accounts {s : State} (h : s.Accounts) : s.expireLog.Accounts := by
  obtain ⟨sub, count⟩ := splitExpired_parts s.timer s.params.returnTimeout s.log
  exact AccountSound.close (s := s.countN .lost _) h (sub.map _) (count _).le .lost

theorem State.endReturning_accounts {s : State} (h : s.Accounts) (good : Bool) : (s.endReturning good).Accounts := by
  cases found : s.log.find? (fun e => !e.isOutstanding) with
  | none =>
    rw [State.endReturning_of_none fun e he => by simpa using List.find?_eq_none.1 found e he]
    exact h
  | some e =>
    obtain ⟨returning, older, newer, all, outstanding⟩ := List.find?_eq_some_iff_append.1 found
    rw [State.endReturning_of_returning all (by simpa using outstanding) (by simpa using returning)]
    refine AccountSound.close (closed := [e]) (s := s.count .stripped) h ?_ ?_ _
    · rw [all]
      exact ((List.Sublist.refl older).append (List.sublist_cons_self e newer)).map _
    · rw [all, List.countP_append, List.countP_append, List.countP_cons, List.countP_cons, List.countP_nil]
      omega

theorem State.flushLog_accounts {s : State} (h : s.Accounts) : s.flushLog.Accounts :=
  AccountSound.close (left := []) h (List.nil_sublist _) (Nat.le_refl _) s .flushed

end Sys2Proof.Machine
end

section
/-! The account over every command: what closes entries, places records or starts an insertion keeps it, and all else
leaves log and reports alone (R71, R82, R84, R94, R95, R122, R123). -/

namespace Sys2Proof.Machine

/-! ### The loop receive line -/

theorem State.octetTimes_accounts {s : State} (h : s.Accounts) (n : Nat) : (s.octetTimes n).Accounts := by
  obtain ⟨_, e⟩ := s.octetTimes_frame n
  rw [e]
  exact h

theorem State.frameEnd_accounts {s : State} (h : s.Accounts) (c : EndCond) : (s.frameEnd c).Accounts := by
  have held : (s.frameEnd c).statusHeld = s.statusHeld := by
    obtain ⟨_, _, _, _, _, _, _, e⟩ := s.frameEnd_frame c
    rw [e]
  cases hv : s.verdict with
  | none =>
    rw [State.frameEnd_of_no_verdict hv]
    split <;> exact h
  | some r =>
    unfold State.Accounts
    rw [State.frameEnd_log hv, State.frameEnd_reports hv, held]
    split
    · have returned := State.endReturning_accounts h c.isGood
      obtain ⟨_, _, _, e⟩ := s.endReturning_frame c.isGood
      rw [e] at returned ⊢
      exact returned
    · exact h

theorem State.superviseFlag_accounts {s : State} (h : s.Accounts) (c : Option EndCond) :
    (s.superviseFlag c).Accounts := by
  unfold State.superviseFlag
  dsimp only
  split
  · exact State.raise_accounts (s := { s with sup := _ }) h _ _
  · exact h

theorem State.loopFlag_accounts {s : State} (h : s.Accounts) (tail : List Bool) : (s.loopFlag tail).Accounts := by
  unfold State.loopFlag
  dsimp only
  refine State.superviseFlag_accounts ?_ _
  split
  · exact State.frameEnd_accounts h _
  · exact h

theorem State.abortFrame_accounts {s : State} (h : s.Accounts) (reason : AbortReason) :
    (s.abortFrame reason).Accounts := by
  unfold State.abortFrame
  split
  · exact State.frameEnd_accounts h _
  · exact h

theorem State.loopOnes_accounts {s : State} (h : s.Accounts) (run : Nat) : (s.loopOnes run).Accounts :=
  State.abortFrame_accounts h .abort

theorem State.silence_accounts {s : State} (h : s.Accounts) : s.silence.Accounts := by
  unfold State.silence
  split
  · exact State.abortFrame_accounts (State.raise_accounts h .lineDown _) .silence
  · exact h

theorem State.reserveTransit_accounts {s : State} (h : s.Accounts) (hd : Header) (marks : Option Mark) :
    (s.reserveTransit hd marks).Accounts := by
  unfold State.reserveTransit
  split
  · exact h
  · exact State.raise_accounts (s := s.count .transitRefused) h _ _

theorem State.reserveDelivery_accounts {s : State} (h : s.Accounts) (hd : Header) (label : Option Byte) :
    (s.reserveDelivery hd label).2.Accounts := by
  unfold State.reserveDelivery
  split
  · exact h
  · exact State.raise_accounts (s := s.count .deliveryRefused) h _ _

theorem State.judgeHeader_accounts {s : State} (h : s.Accounts) (hd : Header) (f : Finding) :
    (s.judgeHeader hd f).Accounts := by
  have hit : (s.hitMatched f).Accounts := by
    obtain ⟨_, e, -⟩ := s.hitMatched_frame f
    rw [e]
    exact h
  have offered : (s.offerRequest hd.sa).2.Accounts := by
    obtain ⟨_, _, e⟩ := s.offerRequest_frame hd.sa
    rw [e]
    exact h
  unfold State.judgeHeader
  dsimp only
  split
  · exact h
  · exact State.stripHeader_accounts h hd
  · exact State.raise_accounts (s := s.count .orphaned) h _ _
  · exact State.reserveTransit_accounts offered _ _
  · exact State.reserveTransit_accounts hit _ _
  · exact State.reserveTransit_accounts (State.reserveDelivery_accounts hit _ _) _ _
  · exact hit

theorem State.loopOctet_accounts {s : State} (h : s.Accounts) (v : Byte) (rest : List Bool) :
    (s.loopOctet v rest).Accounts := by
  have received : ∀ rx, ({ s with rx := rx } : State).Accounts := fun _ => h
  unfold State.loopOctet
  split
  · exact h
  · exact h
  · rename_i f _
    unfold State.frameOctet
    dsimp only
    split
    · exact State.frameEnd_accounts (received _) .length
    split
    · exact State.judgeHeader_accounts (received _) _ _
    split
    · obtain ⟨_, _, _, e⟩ := State.infoOctet_frame { s with rx := ⟨.frame (f.push 0 v), 0, rest⟩ } v
      rw [e]
      exact h
    · exact h

/-! ### Insertion (R71, R74, R76, R83, R84) -/

/-- What holds of the state, and of each candidate's start where its gates are open, holds of the arbiter's choice. -/
theorem State.insert_gated {P : State → Prop} {s : State} (stay : P s)
    (own : s.logGate = true → ∀ f rest, P (s.startOwn f rest))
    (urgent : s.logGate = true → s.budgetGate = true → ∀ f rest, P (s.startUrgent f rest))
    (normal : s.logGate = true → s.budgetGate = true → ∀ f rest, P (s.startNormal f rest)) : P s.insert := by
  cases log : s.logGate with
  | false =>
    rw [State.insert_of_none (State.tryOwn_eq_none (.inr log)) (State.tryUrgent_eq_none (.inr (.inl log)))
      (State.tryNormal_eq_none (.inr (.inl log)))]
    exact stay
  | true =>
    cases budget : s.budgetGate with
    | true =>
      exact State.insert_induction stay (fun f rest _ => own log f rest) (fun f rest _ => urgent log budget f rest)
        fun f rest _ => normal log budget f rest
    | false =>
      have noUrgent := s.tryUrgent_eq_none (.inr (.inr budget))
      have noNormal := s.tryNormal_eq_none (.inr (.inr budget))
      cases queue : s.own with
      | nil =>
        rw [State.insert_of_none (State.tryOwn_eq_none (.inl queue)) noUrgent noNormal]
        exact stay
      | cons f rest =>
        rw [State.insert_own queue log (.inr budget)]
        exact own log f rest

/-- An own entry takes none of the budget; another takes a unit of what the gate found free (R71, R94). -/
theorem State.appendLog_accounts {s : State} (h : s.Accounts) (log : s.logGate = true) {o : Origin}
    (budget : o ≠ .own → s.budgetGate = true) (hd : Header) : (s.appendLog o hd).Accounts := by
  have room := s.logGate_iff.1 log
  obtain ⟨_, _, -, free, -⟩ := nextSeq_of_room s.logSeq room
  have unit : (s.newEntry o hd).reports = decide (o ≠ .own) := Bool.and_true _
  obtain ⟨entries, sequences, used, shared, waiting, full⟩ := h
  refine ⟨?_, ?_, ?_, shared, waiting, full⟩
  · rw [State.appendLog_log, List.length_append]
    exact room
  · rw [State.appendLog_log, List.map_append]
    refine sequences.append (List.nodup_singleton _) ?_
    rw [List.map_singleton, List.disjoint_singleton]
    exact free
  · rw [State.appendLog_log, State.appendLog_reports, List.countP_append, List.countP_singleton, unit]
    by_cases own : o = .own
    · simpa [own] using used
    · have := s.budgetGate_iff.1 (budget own)
      rw [State.budget_eq_countP] at this
      simp [own]
      omega

theorem State.causeIfWasFull_accounts {s : State} (h : s.Accounts) (before : Nat) :
    (s.causeIfWasFull before).Accounts := by
  unfold State.causeIfWasFull
  split
  · exact State.causeStatus_accounts h
  · exact h

theorem State.insert_accounts {s : State} (h : s.Accounts) : s.insert.Accounts := by
  refine State.insert_gated h (fun log f rest => ?_) (fun log budget f rest => ?_) fun log budget f rest => ?_
  · exact State.appendLog_accounts h log (fun no => absurd rfl no) _
  · refine State.causeIfWasFull_accounts ?_ _
    exact State.appendLog_accounts h log (fun _ => budget) f.header
  · refine State.causeIfWasFull_accounts ?_ _
    exact State.appendLog_accounts h log (fun _ => budget) f.header

theorem State.arbitrate_accounts {s : State} (h : s.Accounts) : s.arbitrate.Accounts := by
  unfold State.arbitrate
  split
  · split
    · split <;> exact h
    · exact State.insert_accounts h
  · exact h

theorem State.underrun_accounts {s : State} (h : s.Accounts) : s.underrun.Accounts := by
  unfold State.underrun
  split
  · exact h
  · split
    · exact State.raise_accounts (s := s.count .underrun) h _ _
    · exact h

/-! ### The station port (R95, R116, R122, R123, R128, R129) -/

/-- A break empties the report queue and takes every entry out of the budget (R94, R95). -/
theorem State.breakEffects_accounts {s : State} (h : s.Accounts) : s.breakEffects.Accounts := by
  have silenced : ∀ e : LogEntry, e.silence.reports = false := by
    intro e
    by_cases own : e.origin = .own <;> simp [LogEntry.silence, LogEntry.reports, own]
  refine ⟨?_, ?_, ?_, Nat.zero_le _, Nat.zero_le _, fun held => absurd held (by simp [State.breakEffects])⟩
  · exact (List.length_map _).trans_le h.entries
  · have same : (s.log.map LogEntry.silence).map (fun e => e.seq) = s.log.map (fun e => e.seq) := by
      rw [List.map_map]
      rfl
    exact same ▸ h.sequences
  · have none : (s.log.map LogEntry.silence).countP (fun e => e.reports) = 0 := by
      rw [List.countP_map, List.countP_eq_zero]
      intro e _
      simp [silenced]
    exact none.trans_le (Nat.zero_le _)

theorem State.Accounts.srx {s : State} (h : s.Accounts) (x : StationRx) : ({ s with srx := x } : State).Accounts := h

theorem State.startBreak_accounts {s : State} (h : s.Accounts) (bits : List Bool) : (s.startBreak bits).Accounts := by
  unfold State.startBreak
  split
  · exact State.breakEffects_accounts (h.srx _)
  · exact h

theorem State.stationExcess_accounts {s : State} (h : s.Accounts) (v : Byte) (rest : List Bool) :
    (s.stationExcess v rest).Accounts := by
  have discarded := fun x => State.discard_accounts (h.srx x)
  unfold State.stationExcess State.breakInHunt
  split
  · exact State.breakEffects_accounts (discarded _)
  · exact discarded _

theorem State.stationOctet_accounts {s : State} (h : s.Accounts) (v : Byte) (rest : List Bool) :
    (s.stationOctet v rest).Accounts := by
  unfold State.stationOctet
  dsimp only
  split
  · exact State.stationExcess_accounts h v rest
  split
  · exact State.breakEffects_accounts (h.srx _)
  · exact h

theorem State.stationDiscard_accounts {s : State} (h : s.Accounts) (how : StationEnd) :
    (s.stationDiscard how).Accounts := by
  have discarded := fun x => State.discard_accounts (h.srx x)
  unfold State.stationDiscard
  split
  · split
    · split
      · exact h
      · exact discarded _
    · split
      · exact State.stationExcess_accounts h _ _
      · exact h
    · exact discarded _
  · exact h

theorem State.accept_accounts {s : State} (h : s.Accounts) (m : StationSubmission) : (s.accept m).Accounts := by
  have refused := State.refuse_accounts h m.tag m.cls
  unfold State.accept
  split
  · exact refused _
  split
  · exact refused _
  split
  · unfold State.offerLocal
    split
    · exact h
    · exact State.refuse_accounts (s := s.count .mgmtDropped) h _ _ _
  split
  · exact refused _
  split
  · exact refused _
  · unfold State.enqueue
    split <;> exact h

theorem State.stationGood_accounts {s : State} (h : s.Accounts) : s.stationGood.Accounts := by
  unfold State.stationGood
  split
  · split
    · exact State.accept_accounts (h.srx _) _
    · exact h
  · exact h

theorem State.endBreak_accounts {s : State} (h : s.Accounts) : s.endBreak.Accounts := by
  unfold State.endBreak
  split
  · exact State.causeStatus_accounts (s := { s with port := _, srx := _ }) h
  · exact h

theorem Report.isWaitingStatus_iff (r : Report) : r.isWaitingStatus = true ↔ r = .portStatus none := by
  unfold Report.isWaitingStatus
  split
  · exact ⟨fun _ => rfl, fun _ => rfl⟩
  · rename_i other
    exact ⟨fun h => absurd h (by decide), fun h => absurd h other⟩

/-- A PORT STATUS whose sending begins waits no longer, and keeps its place (R124). -/
theorem State.beginRecord_accounts {s : State} (h : s.Accounts) {r : Report} {rest : List Report}
    (queue : s.reports = r :: rest) : (s.beginRecord r rest).Accounts := by
  unfold State.beginRecord
  split
  · rename_i waits
    obtain rfl := r.isWaitingStatus_iff.1 waits
    obtain ⟨entries, sequences, budget, shared, waiting, full⟩ := h
    rw [queue, List.countP_cons] at budget shared waiting full
    refine ⟨entries, sequences, ?_, ?_, ?_, ?_⟩ <;> rw [List.countP_cons]
    · exact budget
    · exact shared
    · exact (Nat.add_le_add_right (Nat.le_succ _) _).trans waiting
    · exact full
  · exact h

theorem State.portChoice_accounts {s : State} (h : s.Accounts) : s.portChoice.Accounts := by
  unfold State.portChoice
  split
  · split
    · exact State.beginRecord_accounts h ‹_›
    all_goals exact h
  · exact h

/-- A record leaves; a held PORT STATUS takes the place that a shared one leaves, and is then the one that waits (R123). -/
theorem State.recordSent_accounts {s : State} (h : s.Accounts) : s.recordSent.Accounts := by
  unfold State.recordSent
  split
  · exact h
  · rename_i r rest queue
    obtain ⟨entries, sequences, budget, shared, waiting, full⟩ := h
    rw [queue, List.countP_cons] at budget shared waiting full
    split
    · rename_i takes
      obtain ⟨isShared, held⟩ := Bool.and_eq_true_iff.1 takes
      rw [if_pos isShared] at shared
      rw [if_pos held] at waiting
      refine ⟨entries, sequences, ?_, ?_, ?_, Bool.noConfusion⟩
      · rw [List.countP_append]
        exact (Nat.add_le_add_left (Nat.le_add_right _ _) _).trans budget
      · rw [List.countP_append]
        exact shared
      · have none : rest.countP (fun r => r.isWaitingStatus) = 0 := by omega
        rw [List.countP_append, none]
        exact Nat.le_refl 1
    · rename_i leaves
      refine ⟨entries, sequences, ?_, ?_, ?_, fun held => ?_⟩
      · exact (Nat.add_le_add_left (Nat.le_add_right _ _) _).trans budget
      · exact (Nat.le_add_right _ _).trans shared
      · exact (Nat.add_le_add_right (Nat.le_add_right _ _) _).trans waiting
      · have completion : ¬ (!r.isCompletion) = true := fun isShared =>
          leaves (Bool.and_eq_true_iff.2 ⟨isShared, held⟩)
        have places := full held
        rwa [if_neg completion] at places

theorem State.reportSent_accounts {s : State} (h : s.Accounts) : s.reportSent.Accounts := by
  unfold State.reportSent
  split
  · exact State.recordSent_accounts h
  all_goals exact h

/-! ### The end of an event -/

theorem State.expireSession_accounts {s : State} (h : s.Accounts) : s.expireSession.Accounts := by
  unfold State.expireSession
  split
  · exact h
  · split
    · exact State.raise_accounts (s := { s with session := none }) h _ _
    · exact h

theorem State.afterWrite_accounts {s : State} (h : s.Accounts) (p : Param) : (s.afterWrite p).Accounts := by
  unfold State.afterWrite
  split
  · exact State.expireLog_accounts h
  · exact State.expireSession_accounts h
  · exact State.silence_accounts h
  · exact h

theorem State.runParamWrite_accounts {s : State} (h : s.Accounts) (r : Request) :
    (State.runParamWrite r s).1.Accounts := by
  have written : ∀ ps, ({ s with params := ps } : State).Accounts := fun _ => h
  unfold State.runParamWrite State.ifAuthorized State.writeParam
  repeat' split
  · exact h
  · exact h
  · exact State.afterWrite_accounts (written _) _
  · exact h
  · exact h

theorem State.restartPort_accounts {s : State} (h : s.Accounts) (frames : Nat) : (s.restartPort frames).Accounts :=
  State.causeStatus_accounts (s := { s with flushed := saturate (s.flushed + frames) }) h

theorem State.restartNotices_accounts {s : State} (h : s.Accounts) (who : Requester) :
    (s.restartNotices who).Accounts :=
  State.raise_accounts (s := { s with slots := Vector.replicate 8 .idle }) h .started who.detail

/-- RESTART closes every entry, then causes a PORT STATUS, and raises STARTED last (R153). -/
theorem State.restart_accounts {s : State} (h : s.Accounts) (r : Request) : (s.restart r).Accounts := by
  have alone : ∀ {t : State}, t.Accounts → ({ t with requests := [r], session := none } : State).Accounts := id
  have flushed := State.flushLog_accounts (s := s.restartLoop.restartQueues) h
  exact State.restartNotices_accounts (alone (State.restartPort_accounts flushed _)) r.source

theorem State.runOf_accounts {s : State} (h : s.Accounts) (c : Option Command) (r : Request) :
    (State.runOf c r s).1.Accounts := by
  cases c with
  | none => exact h
  | some c =>
    cases hc : c.reachesReceiver with
    | false =>
      obtain ⟨_, _, _, _, _, _, _, e⟩ := State.runOf_administers hc r s
      rw [e]
      exact h
    | true =>
      cases c with
      | paramWrite => exact State.runParamWrite_accounts h r
      | restart =>
        show (s.ifAuthorized r.source (s.restart r, .ok [])).1.Accounts
        unfold State.ifAuthorized
        split
        · exact State.restart_accounts h r
        · exact h
      | _ => cases hc

theorem State.carryOut_accounts {s : State} (h : s.Accounts) (r : Request) : (s.carryOut r).Accounts := by
  obtain ⟨_, _, e⟩ := State.reply_frame (State.runOf r.command r s).1 r (State.runOf r.command r s).2
  rw [State.carryOut, State.carry, e]
  exact State.runOf_accounts h r.command r

theorem State.resendWaiting_accounts {s : State} (h : s.Accounts) : s.resendWaiting.Accounts := by
  obtain ⟨_, _, e⟩ := s.resendWaiting_frame
  rw [e]
  exact h

theorem State.placeNotices_accounts {s : State} (h : s.Accounts) : s.placeNotices.Accounts := by
  obtain ⟨_, _, _, e⟩ := s.placeNotices_frame
  rw [e]
  exact h

theorem State.settle_accounts {s : State} (h : s.Accounts) : s.settle.Accounts :=
  State.placeNotices_accounts (State.engine_induction h fun _ r _ h => State.carryOut_accounts h r)

/-! ### Every command -/

theorem blockEffect_accounts (c : Instr) {s : State} (h : s.Accounts) : (blockEffect c s).Accounts := by
  cases c with
  | loopFlag tail times => exact State.loopFlag_accounts (State.octetTimes_accounts h times) tail
  | loopOctet v rest times => exact State.loopOctet_accounts (State.octetTimes_accounts h times) v rest
  | loopAbort => exact State.loopOnes_accounts h 7
  | lineIdle => exact State.loopOnes_accounts h 15
  | lineSilenceDeadline => exact State.silence_accounts h
  | arbiterChoice => exact State.arbitrate_accounts h
  | underrun times => exact State.underrun_accounts (State.octetTimes_accounts h times)
  | forwardComplete =>
    obtain ⟨_, _, _, e⟩ := s.completeForward_frame
    exact (congrArg State.Accounts e).mpr h
  | insertionEnd =>
    show s.endInsertion.Accounts
    unfold State.endInsertion
    split <;> exact h
  | abortComplete =>
    show s.completeAbort.Accounts
    unfold State.completeAbort
    split <;> exact h
  | returnTimeoutExpiry => exact State.expireLog_accounts h
  | portBreak bits => exact State.startBreak_accounts h bits
  | portBreakEnd => exact State.endBreak_accounts h
  | stationFrameGood => exact State.stationGood_accounts h
  | stationFrameDiscard how => exact State.stationDiscard_accounts h how
  | portTxChoice => exact State.portChoice_accounts h
  | portReportSent => exact State.reportSent_accounts h
  | portTxAbortComplete =>
    show s.portAbortSent.Accounts
    unfold State.portAbortSent
    split <;> exact h
  | sessionTimeoutExpiry => exact State.expireSession_accounts h
  | noticeRetryDeadline k =>
    obtain ⟨_, _, e⟩ := s.retryDeadline_frame k
    exact (congrArg State.Accounts e).mpr h
  | stationFlag tail =>
    show s.stationFlag.Accounts
    unfold State.stationFlag
    split <;> exact h
  | stationOctet v rest => exact State.stationOctet_accounts h v rest
  | stationAbort idle =>
    show (s.stationAbort idle).Accounts
    unfold State.stationAbort
    split <;> exact h
  | _ => exact h

theorem exec_accounts {c : Instr} {s t : State} (h : s.Accounts) (hn : exec c s = .next t) : t.Accounts := by
  have empty : AccountSound [] [] false := ⟨by decide, by decide, by decide, by decide, by decide, by decide⟩
  have command : (∀ g m, c ≠ .powerOnReset g m) → c ≠ .powerOnResetAssert → t.Accounts := by
    intro release assert
    have block := blockEffect_accounts c h
    rcases exec_cases hn release assert with same | same | same | same <;> rw [same]
    · exact h
    · exact block
    · exact State.settle_accounts block
    · exact State.resendWaiting_accounts (State.settle_accounts h)
  cases c with
  | powerOnReset g m =>
    obtain rfl := Host.Outcome.next.inj hn
    exact empty
  | powerOnResetAssert =>
    obtain rfl := Host.Outcome.next.inj hn
    exact empty
  | _ => exact command (by simp) (by simp)

/-- Settles O53: a command keeps the account of log and reports, and a millisecond touches neither. -/
theorem stepKeepsLogAndReportsBounded : Obligations.StepKeepsLogAndReportsBounded := by
  intro s t bounded hn
  have h := s.accounts_iff.2 bounded
  refine t.accounts_iff.1 ?_
  unfold step at hn
  split at hn
  · obtain rfl := Host.Outcome.next.inj hn
    unfold State.tick
    split <;> exact h
  · rename_i c rest _
    exact exec_accounts (s := { s with pending := rest }) h hn

end Sys2Proof.Machine
end

section
/-! Matching a returning frame in the return log, and the return deadline (R86 to R88, R91, R93). -/

namespace Sys2Proof.Machine

/-! ### Entries that close LOST -/

/-- The reports as the statements spell them: a COMPLETION for each STATION entry that is not silent, while ACTIVE. -/
theorem State.closeLost_reports (s : State) (es : List LogEntry) :
    (s.closeLost es).reports = s.reports ++
      if s.port = .active then
        es.filterMap (fun x =>
          match x.origin, x.silent with
          | .station tag cls, false => some (.completion tag cls x.seq .lost)
          | _, _ => none)
      else [] := rfl

theorem State.closeLost_counter (s : State) (es : List LogEntry) (k : Counter) :
    (s.closeLost es).counter k = s.counter k + if k = .lost then BitVec.ofNat 32 es.length else 0 :=
  s.counter_countN .lost k es.length

/-! ### Frame identities (R83, R86) -/

theorem LogEntry.identifies_iff (e : LogEntry) (h : Header) :
    e.identifies h = true ↔ e.da = h.da ∧ e.sa = h.sa ∧ e.kind = h.kind ∧ e.declared = h.declared := decide_eq_true_iff

theorem State.stripHeader_of_stray {s : State} {h : Header} (no : ∀ x ∈ s.log, x.identifies h = false) :
    s.stripHeader h = s.count .stray := by
  rw [State.stripHeader, splitMatch_none no]

theorem State.stripHeader_of_match {s : State} {h : Header} {older newer : List LogEntry} {e : LogEntry}
    (log : s.log = older ++ e :: newer) (no : ∀ x ∈ older, x.identifies h = false) (yes : e.identifies h = true) :
    s.stripHeader h =
      { s.closeLost (older.filter (fun x => x.isOutstanding)) with
        log := older.filter (fun x => !x.isOutstanding) ++ { e with state := .returning h.tally } :: newer } := by
  rw [State.stripHeader, log, splitMatch_append no yes]

/-- Settles O21: a stray, or the split of the log at the oldest match. -/
theorem stripMatchesOldest : Obligations.StripMatchesOldest := by
  intro h s same
  have differs : ∀ {x}, ¬ same x → x.identifies h = false := fun {x} no =>
    Bool.eq_false_iff.2 fun yes => no ((x.identifies_iff h).1 yes)
  refine ⟨fun no => State.stripHeader_of_stray fun x hx => differs (no x hx), fun older newer e log no yes => ?_⟩
  have stripped := State.stripHeader_of_match log (fun x hx => differs (no x hx)) ((e.identifies_iff h).2 yes)
  intro lost t
  have ht : t = _ := stripped
  rw [ht]
  exact ⟨rfl, rfl, s.closeLost_reports lost, s.closeLost_counter lost⟩

/-! ### The return deadline (R91) -/

/-- The OUTSTANDING entries expire up to the first whose deadline is not reached; the others stay. -/
theorem splitExpired_of_outstanding {now : Word32} {timeout : Nat} {log expired rest : List LogEntry}
    (outstanding : log.filter (fun e => e.isOutstanding) = expired ++ rest)
    (due : ∀ e ∈ expired, timeout ≤ (now - e.insertedAt).toNat)
    (next : ∀ e, rest.head? = some e → (now - e.insertedAt).toNat < timeout) :
    (splitExpired now timeout log).1 = expired ∧
      (splitExpired now timeout log).2.filter (fun e => e.isOutstanding) = rest ∧
      (splitExpired now timeout log).2.filter (fun e => !e.isOutstanding) = log.filter (fun e => !e.isOutstanding) := by
  induction log generalizing expired with
  | nil =>
    obtain ⟨rfl, rfl⟩ := List.append_eq_nil_iff.1 outstanding.symm
    exact ⟨rfl, rfl, rfl⟩
  | cons e es ih =>
    unfold splitExpired
    split
    · rename_i out
      rw [List.filter_cons_of_pos out] at outstanding
      cases expired with
      | nil =>
        have first : ¬ deadlineReached now e.insertedAt timeout = true := by
          have := next e (by rw [← List.nil_append rest, ← outstanding]; rfl)
          rw [deadlineReached_iff]
          omega
        rw [if_neg first]
        exact ⟨rfl, by rw [List.filter_cons_of_pos out]; exact outstanding, rfl⟩
      | cons x expired =>
        rw [List.cons_append] at outstanding
        obtain ⟨rfl, later⟩ := List.cons_eq_cons.1 outstanding
        rw [if_pos ((deadlineReached_iff _ _ _).2 (due e List.mem_cons_self))]
        obtain ⟨gone, left, returning⟩ := ih later fun x hx => due x (List.mem_cons_of_mem _ hx)
        exact ⟨congrArg (e :: ·) gone, left, by rw [returning, List.filter_cons_of_neg (by simp [out])]⟩
    · rename_i ret
      rw [List.filter_cons_of_neg ret] at outstanding
      obtain ⟨gone, left, returning⟩ := ih outstanding due
      refine ⟨gone, by rw [List.filter_cons_of_neg ret]; exact left, ?_⟩
      rw [List.filter_cons_of_pos (by simpa using ret), List.filter_cons_of_pos (by simpa using ret), returning]

theorem exec_returnTimeoutExpiry {s : State} (running : s.resetAsserted = false) :
    exec .returnTimeoutExpiry s = .next s.expireLog := State.running_of_released State.expireLog running

/-- Settles O22: the due entries are the first part of the split, and the log is the second. -/
theorem returnExpiryClosesOldest : Obligations.ReturnExpiryClosesOldest := by
  intro s expired rest running outstanding due next
  obtain ⟨gone, left, returning⟩ := splitExpired_of_outstanding outstanding due next
  have lost : s.expireLog =
      { s.closeLost expired with log := (splitExpired s.timer s.params.returnTimeout s.log).2 } := by
    rw [← gone]
    rfl
  refine ⟨s.expireLog, exec_returnTimeoutExpiry running, ?_⟩
  rw [lost]
  exact ⟨rfl, (splitExpired_parts _ _ _).1, left, returning, s.closeLost_reports expired, s.closeLost_counter expired⟩

end Sys2Proof.Machine
end

section
/-! A break of the station port, from the zero run that begins it to the flag that ends it (R95, R111, R116, R117, R129,
R155, R174). -/

namespace Sys2Proof.Machine

/-! ### Runs of bits (R1, R116) -/

theorem zerosAfter_append (n : Nat) (front back : List Bool) :
    zerosAfter n (front ++ back) = zerosAfter (zerosAfter n front) back := List.foldl_append

theorem onesAfter_append (n : Nat) (front back : List Bool) :
    onesAfter n (front ++ back) = onesAfter (onesAfter n front) back := List.foldl_append

theorem zerosAfter_zeros (n k : Nat) : zerosAfter n (List.replicate k false) = n + k := by
  induction k generalizing n with
  | zero => rfl
  | succ k ih => exact (ih (n + 1)).trans (by omega)

theorem onesAfter_ones (n k : Nat) : onesAfter n (List.replicate k true) = n + k := by
  induction k generalizing n with
  | zero => rfl
  | succ k ih => exact (ih (n + 1)).trans (by omega)

/-- A one ends every zero run before it. -/
theorem zerosAfter_one_zeros (n k : Nat) (bits : List Bool) :
    zerosAfter n (bits ++ true :: List.replicate k false) = k := by
  rw [zerosAfter_append]
  exact (zerosAfter_zeros 0 k).trans (Nat.zero_add k)

/-- A zero ends every run of ones before it. -/
theorem onesAfter_zero_ones (n k : Nat) (bits : List Bool) :
    onesAfter n (bits ++ false :: List.replicate k true) = k := by
  rw [onesAfter_append]
  exact (onesAfter_ones 0 k).trans (Nat.zero_add k)

/-! ### The effects of a break -/

theorem PortTx.abort_eq (p : PortTx) : p.abort = if p = .idle then .idle else .aborting := by cases p <;> rfl

theorem LogEntry.silence_eq (e : LogEntry) :
    e.silence = if e.origin = .own then e else { e with silent := true } := by
  unfold LogEntry.silence
  split
  · rename_i own
    have kept : (e.silent || decide (e.origin ≠ .own)) = e.silent := by simp [own]
    rw [kept]
  · rename_i station
    have silent : (e.silent || decide (e.origin ≠ .own)) = true := by simp [station]
    rw [silent]

theorem sessionAfterBreak_eq (x : Option Session) :
    sessionAfterBreak x = x.filter (fun x => decide (x.owner ≠ .station)) := by
  cases x with
  | none => rfl
  | some x => by_cases station : x.owner = .station <;> simp [sessionAfterBreak, Option.filter, station]

theorem State.breakEffects_eq (s : State) :
    s.breakEffects =
      { s with
        port := .break
        ptx := if s.ptx = .idle then .idle else .aborting
        reports := [], statusHeld := false, replies := [], delivery := [], urgent := [], normal := []
        log := s.log.map (fun e => if e.origin = .own then e else { e with silent := true })
        requests := s.requests.filter (fun r => r.isLoop)
        session := s.session.filter (fun x => decide (x.owner ≠ .station))
        discarded := 0, flushed := 0 } := by
  rw [State.breakEffects, s.ptx.abort_eq, funext LogEntry.silence_eq, sessionAfterBreak_eq]

theorem State.breakInHunt_eq (s : State) :
    s.breakInHunt = if s.port = .active ∧ s.srx.state = .hunt ∧ 32 ≤ s.srx.zeroRun then s.breakEffects else s := by
  simp only [State.breakInHunt, State.breakBegins, decide_eq_true_eq]

/-- The zero run reaches 32 at a bit, whatever bits follow (R116). -/
theorem State.breakWithin_iff (s : State) (bits : List Bool) :
    s.breakWithin bits = true ↔
      s.port = .active ∧ s.srx.state = .hunt ∧ ∃ k, 32 ≤ zerosAfter s.srx.zeroRun (bits.take k) := by
  rw [State.breakWithin, decide_eq_true_iff, le_zeroPeak_iff]

theorem exec_portBreak_bits {s : State} (running : s.resetAsserted = false) (bits : List Bool) :
    exec (.portBreak bits) s = .next (s.startBreak bits).settle :=
  State.event_of_released (fun s => s.startBreak bits) running

/-! ### The end of a break -/

theorem exec_portBreakEnd {s : State} (running : s.resetAsserted = false) :
    exec .portBreakEnd s = .next s.endBreak := State.running_of_released State.endBreak running

/-- The first record of an empty queue (R123). -/
theorem State.causeStatus_of_empty {s : State} (active : s.port = .active) (empty : s.reports = [])
    (held : s.statusHeld = false) : s.causeStatus = { s with reports := [.portStatus none] } := by
  simp [State.causeStatus, State.statusWaits, State.sharedRecords, active, empty, held]

/-- Settles O23: the zero run at each bit decides, and the effects are those of R129. -/
theorem breakBeginsAndEnds : Obligations.BreakBeginsAndEnds := by
  intro s running broken
  have effects : ∀ t, t.breakEffects = broken t := State.breakEffects_eq
  refine ⟨fun bits => ⟨fun active hunt reaches => ?begins, fun no => ?stays⟩, effects s, ?hunt,
    fun n k => ⟨zerosAfter_zeros n k, onesAfter_ones n k⟩,
    fun n k bits => ⟨zerosAfter_one_zeros n k bits, onesAfter_zero_ones n k bits⟩, fun inBreak => ?ends,
    fun active => ?active⟩
  case begins =>
    have within := (s.breakWithin_iff bits).2 ⟨active, hunt, reaches⟩
    rw [exec_portBreak_bits running, State.startBreak, if_pos within, effects]
    rfl
  case stays =>
    have none : ¬ s.breakWithin bits = true := by
      rw [s.breakWithin_iff bits]
      rintro ⟨active, hunt, reaches⟩
      rcases no with inBreak | other | short
      · rw [active] at inBreak
        cases inBreak
      · exact other hunt
      · exact short reaches
    rw [exec_portBreak_bits running, State.startBreak, if_neg none]
  case hunt => rw [s.breakInHunt_eq, effects]
  case ends =>
    have ended : exec .portBreakEnd s = .next { s with port := .active, srx := ⟨.fill, 0, 1, []⟩ }.causeStatus := by
      rw [exec_portBreakEnd running, State.endBreak, if_pos inBreak]
      rfl
    exact ⟨ended, fun empty held => ended.trans (congrArg _ (State.causeStatus_of_empty rfl empty held))⟩
  case active => rw [exec_portBreakEnd running, State.endBreak, if_neg (by rw [active]; decide)]

end Sys2Proof.Machine
end

section
/-! The station port's closing flags: a report leaves the transmitter, or the flag after an abort does (R94, R110, R123,
R126 to R128). -/

namespace Sys2Proof.Machine

theorem exec_portReportSent {s : State} (running : s.resetAsserted = false) :
    exec .portReportSent s = .next s.reportSent.settle := State.event_of_released State.reportSent running

theorem exec_portTxAbortComplete {s : State} (running : s.resetAsserted = false) :
    exec .portTxAbortComplete s = .next s.portAbortSent := State.running_of_released State.portAbortSent running

/-- A record leaves; a held PORT STATUS takes the place of a shared one (R123). -/
theorem State.reportSent_of_record {s : State} {r : Report} {rest : List Report} (record : s.ptx = .record)
    (queue : s.reports = r :: rest) :
    s.reportSent =
      if r.isCompletion = false ∧ s.statusHeld = true then
        { s with reports := rest ++ [.portStatus none], statusHeld := false, ptx := .idle }
      else { s with reports := rest, ptx := .idle } := by
  simp only [State.reportSent, record, State.recordSent, queue, Bool.and_eq_true, Bool.not_eq_true']

/-- A COMPLETION that has been sent frees its unit of the budget (R94). -/
theorem State.budget_of_completion {s : State} {r : Report} {rest : List Report} (queue : s.reports = r :: rest)
    (completion : r.isCompletion = true) (ptx : PortTx) :
    s.budget = ({ s with reports := rest, ptx := ptx } : State).budget + 1 := by
  rw [State.budget, State.budget, queue, List.filter_cons_of_pos completion, List.length_cons, Nat.add_assoc]

/-- Settles O29, by the transmitter's state. -/
theorem portReportLeaves : Obligations.PortReportLeaves := by
  intro s running
  refine ⟨fun r rest record queue => ⟨?record, fun completion => State.budget_of_completion queue completion .idle⟩,
    fun r rest reply queue => ?reply, fun e es sending store => ?delivery, fun other => ?other,
    fun aborting => ?aborted, fun other => ?notAborting⟩
  case record => rw [exec_portReportSent running, State.reportSent_of_record record queue]
  case reply =>
    rw [exec_portReportSent running, State.reportSent, reply, queue]
    rfl
  case delivery =>
    rw [exec_portReportSent running, State.reportSent, sending, store]
    rfl
  case other =>
    rw [exec_portReportSent running, State.reportSent]
    rcases other with idle | aborting
    · rw [idle]
    · rw [aborting]
  case aborted => rw [exec_portTxAbortComplete running, State.portAbortSent, if_pos aborting]
  case notAborting => rw [exec_portTxAbortComplete running, State.portAbortSent, if_neg other]

end Sys2Proof.Machine
end

section
/-! PARAM WRITE: the values in range, and what a new value causes (R91, R142, R144, R145, R170). -/

namespace Sys2Proof.Machine

/-! ### Codes and values (R142, 11.3) -/

theorem Param.ofOctet_code (p : Param) : Param.ofOctet (oct p.code) = some p := by cases p <;> decide

/-- The codes 0 to 11 are the parameters'. -/
theorem Param.exists_code {code : Byte} (known : code.toNat < 12) : ∃ p : Param, code = oct p.code := by
  have all : ∀ n < 12, ∃ p ∈ Param.all, p.code = n := by decide
  obtain ⟨p, -, hp⟩ := all _ known
  exact ⟨p, by rw [hp, oct, BitVec.ofNat_toNat, BitVec.setWidth_eq]⟩

theorem Param.ofOctet_eq_none {code : Byte} (unknown : 12 ≤ code.toNat) : Param.ofOctet code = none := by
  have small : ∀ p ∈ Param.all, (oct p.code).toNat < 12 := by decide
  refine List.find?_eq_none.2 fun p hp same => ?_
  have := small p hp
  rw [of_decide_eq_true same] at this
  omega

/-- A number in two octets reads back as its octets. -/
theorem oct_num16 (hi lo : Byte) : oct (num16 hi lo / 256) = hi ∧ oct (num16 hi lo) = lo := by
  have := hi.isLt
  have := lo.isLt
  constructor <;> apply BitVec.eq_of_toNat_eq <;> simp only [oct, num16, BitVec.toNat_ofNat] <;> omega

theorem some_of_inRange (low high v : Nat) (new : Params) :
    (if inRange low high v then some new else none) = if low ≤ v ∧ v ≤ high then some new else none := by
  simp only [inRange_iff]

/-- DEFAULT_ACTION's three values. -/
theorem Params.write_defaultAction (ps : Params) (v : Nat) :
    ps.write .defaultAction v =
      if 0 ≤ v ∧ v ≤ 2 then
        some { ps with
          defaultAction := match v with
            | 0 => .pass
            | 1 => .copy
            | _ => .drop }
      else none := by
  match v with
  | 0 => rfl
  | 1 => rfl
  | 2 => rfl
  | v + 3 => rfl

/-- NOTICE_DEST takes every value, group first. -/
theorem Params.write_noticeDest (ps : Params) (hi lo : Byte) :
    ps.write .noticeDest (num16 hi lo) = some { ps with noticeDest := ⟨hi, lo⟩ } := by
  obtain ⟨group, member⟩ := oct_num16 hi lo
  rw [Params.write, group, member]

/-! ### The command -/

theorem State.runParamWrite_eq {s : State} {r : Request} {code hi lo : Byte} {rest : List Byte}
    (operands : r.operands = code :: hi :: lo :: rest) (authority : s.authorized r.source = true) :
    State.runParamWrite r s = s.writeParam code hi lo := by
  rw [State.runParamWrite, operands]
  exact if_pos authority

theorem State.writeParam_of_unknown {s : State} {code : Byte} (unknown : Param.ofOctet code = none) (hi lo : Byte) :
    s.writeParam code hi lo = s.deny .badOperand := by
  rw [State.writeParam, unknown]

theorem State.writeParam_of_none {s : State} {p : Param} {hi lo : Byte} (h : s.params.write p (num16 hi lo) = none) :
    s.writeParam (oct p.code) hi lo = s.deny .badOperand := by
  rw [State.writeParam, p.ofOctet_code]
  dsimp only
  rw [h]

theorem State.writeParam_of_some {s : State} {p : Param} {hi lo : Byte} {new : Params}
    (h : s.params.write p (num16 hi lo) = some new) :
    s.writeParam (oct p.code) hi lo = (({ s with params := new } : State).afterWrite p, .ok []) := by
  rw [State.writeParam, p.ofOctet_code]
  dsimp only
  rw [h]

/-- The three parameters whose new value is judged at once (R145). -/
theorem State.afterWrite_eq (s : State) (p : Param) :
    s.afterWrite p =
      if oct p.code = 3 then s.expireLog
      else if oct p.code = 4 then s.expireSession
      else if oct p.code = 10 then s.silence
      else s := by
  cases p <;> rfl

/-- Settles O37: the value's range by the parameter's code, then its effects by the code. -/
theorem paramWriteTakesValue : Obligations.ParamWriteTakesValue := by
  intro s r code hi lo rest served authority v ps within written
  have run : exec .paramWrite s =
      .next ((s.writeParam code hi lo).1.reply r (s.writeParam code hi lo).2).settle := by
    rw [← State.runParamWrite_eq served.operands authority]
    exact served.command .paramWrite rfl State.runParamWrite
  rw [run]
  rcases Nat.lt_or_ge code.toNat 12 with known | unknown
  · obtain ⟨p, rfl⟩ := Param.exists_code known
    have value : written = s.params.write p (num16 hi lo) := by
      cases p with
      | defaultAction => exact (ps.write_defaultAction v).symm
      | noticeDest => exact (ps.write_noticeDest hi lo).symm
      | _ => exact (some_of_inRange _ _ v _).symm
    rw [value]
    refine ⟨fun refused => ?_, fun new taken => ?_⟩
    · rw [State.writeParam_of_none refused]
      rfl
    · rw [State.writeParam_of_some taken, State.afterWrite_eq]
      rfl
  · have none : written = none := by
      obtain ⟨n, hn⟩ := Nat.exists_eq_add_of_le' unknown
      simp only [written, hn]
    rw [State.writeParam_of_unknown (Param.ofOctet_eq_none unknown)]
    exact ⟨fun _ => rfl, fun new taken => by rw [none] at taken; cases taken⟩

end Sys2Proof.Machine
end

section
/-! LIST WRITE: its checks in order, and the entry's new value (R96, R146 to R149, R192). -/

namespace Sys2Proof.Machine

/-! ### The operands (11.3, R192) -/

theorem ListName.ofOctet_eq_none {v : Byte} (h : 1 < v.toNat) : ListName.ofOctet v = none := by
  rw [ListName.ofOctet, if_neg, if_neg] <;> rintro rfl <;> exact absurd h (by decide)

theorem readIndex_eq_none {v : Byte} (h : 3 < v.toNat) : readIndex v = none := dif_neg (by omega)

theorem readIndex_eq_some {v : Byte} {i : Fin 4} (h : v.toNat = i.val) : readIndex v = some i := by
  have small : v.toNat < 4 := h ▸ i.isLt
  rw [readIndex, dif_pos small]
  exact congrArg some (Fin.ext h)

theorem readAddressOrEmpty_eq_none {form : Byte} (h : 1 < form.toNat) (g m : Byte) :
    readAddressOrEmpty form g m = none := by
  rw [readAddressOrEmpty, if_neg, if_neg] <;> rintro rfl <;> exact absurd h (by decide)

theorem readAddressOrEmpty_eq_some {form : Byte} (h : form.toNat ≤ 1) (g m : Byte) :
    readAddressOrEmpty form g m = some (if form = 0 then none else some ⟨g, m⟩) := by
  rw [readAddressOrEmpty]
  split
  · rfl
  · rename_i notEmpty
    have one : form = 1 := by bv_omega
    exact if_pos one

/-! ### The checks (R147, R148) -/

theorem heldElsewhere_iff (l : Vector (Option Address) 4) (i : Fin 4) (new : Option Address) :
    heldElsewhere l i new = true ↔ new ≠ none ∧ ∃ j, j ≠ i ∧ l.get j = new := by
  cases new <;> simp [heldElsewhere]

theorem State.inUse_iff (s : State) (a : Address) :
    s.inUse a = true ↔ (∃ e ∈ s.log, e.sa = a) ∨ (∃ f ∈ s.urgent, f.sa = a) ∨ ∃ f ∈ s.normal, f.sa = a := by
  rw [State.inUse, decide_eq_true_iff, List.mem_map, List.mem_map, List.mem_map]

theorem State.givesUpInUse_iff (s : State) (old new : Option Address) :
    s.givesUpInUse old new = true ↔
      ∃ a, old = some a ∧ new ≠ some a ∧
        ((∃ e ∈ s.log, e.sa = a) ∨ (∃ f ∈ s.urgent, f.sa = a) ∨ ∃ f ∈ s.normal, f.sa = a) := by
  simp only [← s.inUse_iff]
  cases old <;> simp [State.givesUpInUse]

/-! ### The command -/

section
variable {s : State} {r : Request} {l index form g m : Byte} {rest : List Byte}

theorem State.runListWrite_of_bad (operands : r.operands = l :: index :: form :: g :: m :: rest)
    (authority : s.authorized r.source = true) (bad : 1 < l.toNat ∨ 3 < index.toNat ∨ 1 < form.toNat) :
    State.runListWrite r s = s.deny .badOperand := by
  rw [State.runListWrite, operands]
  refine (if_pos authority).trans ?_
  rcases bad with list | entry | value
  · rw [ListName.ofOctet_eq_none list]
  · rw [readIndex_eq_none entry]
    split
    · rename_i none _
      cases none
    · rfl
  · rw [readAddressOrEmpty_eq_none value]
    split
    · rename_i none
      cases none
    · rfl

theorem State.runListWrite_of_read (operands : r.operands = l :: index :: form :: g :: m :: rest)
    (authority : s.authorized r.source = true) {x : ListName} (list : ListName.ofOctet l = some x) {i : Fin 4}
    (entry : index.toNat = i.val) (value : form.toNat ≤ 1) :
    State.runListWrite r s = s.writeList x i (if form = 0 then none else some ⟨g, m⟩) := by
  rw [State.runListWrite, operands]
  refine (if_pos authority).trans ?_
  rw [list, readIndex_eq_some entry, readAddressOrEmpty_eq_some value]

theorem exec_listWrite {t : State} {a : Answer} (served : s.Serves r 0x05 (l :: index :: form :: g :: m :: rest))
    (run : State.runListWrite r s = (t, a)) : exec .listWrite s = .next (t.reply r a).settle := by
  refine (served.command .listWrite rfl State.runListWrite).trans ?_
  rw [run]

end

/-- Settles O39, by the checks in order. -/
theorem listWriteChecksAndSets : Obligations.ListWriteChecksAndSets := by
  intro s r l form g m i index rest served authority new held used givesUp
  have read : ∀ {x}, ListName.ofOctet l = some x → index.toNat = i.val → form.toNat ≤ 1 → ∀ {t a},
      s.writeList x i new = (t, a) → exec .listWrite s = .next (t.reply r a).settle := by
    intro x list entry value t a written
    exact exec_listWrite served ((State.runListWrite_of_read served.operands authority list entry value).trans written)
  refine ⟨fun bad => exec_listWrite served (State.runListWrite_of_bad served.operands authority bad),
    fun entry value => ⟨?identity, ?manager⟩⟩
  case identity =>
    rintro rfl
    refine ⟨fun fixed => ?_, fun other dup => ?_, fun other noDup inUse => ?_, fun other noDup free => ?_⟩ <;>
      refine read rfl entry value ?_
    · exact if_pos fixed
    · rw [State.writeList, if_neg other, if_pos ((heldElsewhere_iff _ _ _).2 dup)]
      rfl
    · rw [State.writeList, if_neg other, if_neg (mt (heldElsewhere_iff _ _ _).1 noDup),
        if_pos ((s.givesUpInUse_iff _ _).2 inUse)]
      rfl
    · rw [State.writeList, if_neg other, if_neg (mt (heldElsewhere_iff _ _ _).1 noDup),
        if_neg (mt (s.givesUpInUse_iff _ _).1 free)]
      rfl
  case manager =>
    rintro rfl
    refine ⟨fun dup => ?_, fun noDup => ?_⟩ <;> refine read rfl entry value ?_
    · exact if_pos ((heldElsewhere_iff _ _ _).2 dup)
    · exact if_neg (mt (heldElsewhere_iff _ _ _).1 noDup)

end Sys2Proof.Machine
end

section
/-! The station port transmitter: its choice at the end of a flag, and what its line carries (R107 to R109, R124, R127,
R128, 11.2, 11.5). -/

namespace Sys2Proof.Machine

/-! ### The choice (R107, R108, R124, R128) -/

section
variable {s : State}

theorem exec_portTxChoice (running : s.resetAsserted = false) : exec .portTxChoice s = .next s.portChoice :=
  State.running_of_released State.portChoice running

theorem State.beginRecord_of_waiting (s : State) (rest : List Report) :
    s.beginRecord (.portStatus none) rest =
      { s with reports := .portStatus (some s.portStatus) :: rest, discarded := 0, flushed := 0, ptx := .record } := rfl

theorem State.beginRecord_of_filled (s : State) {r : Report} (filled : r ≠ .portStatus none) (rest : List Report) :
    s.beginRecord r rest = { s with ptx := .record } := if_neg (mt r.isWaitingStatus_iff.1 filled)

theorem State.portChoice_of_busy (busy : s.ptx ≠ .idle) : s.portChoice = s := if_neg busy

theorem State.portChoice_of_record {r : Report} {rest : List Report} (idle : s.ptx = .idle)
    (queue : s.reports = r :: rest) : s.portChoice = s.beginRecord r rest := by
  rw [State.portChoice, if_pos idle, queue]

theorem State.portChoice_of_reply (idle : s.ptx = .idle) (empty : s.reports = []) (waits : s.replies ≠ []) :
    s.portChoice = { s with ptx := .reply } := by
  obtain ⟨r, rest, slot⟩ := List.exists_cons_of_ne_nil waits
  rw [State.portChoice, if_pos idle, empty, slot]

/-- With no record and no REPLY the store's offer decides (R108). -/
theorem State.portChoice_of_store (idle : s.ptx = .idle) (empty : s.reports = []) (noReply : s.replies = []) :
    s.portChoice =
      s.offeredDelivery.elim s fun e =>
        { s with delivery := { e with onPort := true } :: s.delivery.tail, ptx := .delivery } := by
  rw [State.portChoice, if_pos idle, empty, noReply]
  cases s.offeredDelivery <;> rfl

theorem State.offeredDelivery_of_head {e : DeliveryEntry} {es : List DeliveryEntry} (store : s.delivery = e :: es) :
    s.offeredDelivery = if e.status = .good ∧ e.onPort = false then some e else none := by
  simp [State.offeredDelivery, store, Option.filter]

/-! ### What the line carries (R109, R127, R128) -/

theorem State.portLine_of_idle (running : s.resetAsserted = false) (idle : s.ptx = .idle) : s.portLine = .flags := by
  simp [State.portLine, running, idle]

theorem State.portLine_of_aborting (running : s.resetAsserted = false) (aborting : s.ptx = .aborting) :
    s.portLine = .abort := by
  simp [State.portLine, running, aborting]

theorem State.portLine_of_record (running : s.resetAsserted = false) (record : s.ptx = .record) {r : Report}
    {rest : List Report} (queue : s.reports = r :: rest) : s.portLine = .frame (withFcs r.octets) := by
  simp [State.portLine, running, record, queue]

theorem State.portLine_of_reply (running : s.resetAsserted = false) (reply : s.ptx = .reply) {r : ReplyReport}
    {rest : List ReplyReport} (slot : s.replies = r :: rest) : s.portLine = .frame (withFcs r.octets) := by
  simp [State.portLine, running, reply, slot]

theorem State.portLine_of_delivery (running : s.resetAsserted = false) (sending : s.ptx = .delivery)
    {e : DeliveryEntry} {es : List DeliveryEntry} (store : s.delivery = e :: es) :
    s.portLine = .frame (withFcs e.octets) := by
  simp [State.portLine, running, sending, store]

end

/-! ### The fields of a report's body (11.2) -/

/-- The tag octet as a number: the class is worth 128 over the 7 bits of the tag. -/
theorem tagOctet_eq (tag : Tag) (cls : StationClass) :
    tagOctet tag cls = oct (tag.toNat + if cls = .urgent then 128 else 0) := by
  have value : (tagOctet tag cls).toNat = (if cls = .urgent then 128 else 0) + tag.toNat := by
    refine (BitVec.toNat_append _ tag).trans ?_
    rw [← Nat.shiftLeft_add_eq_or_of_lt tag.isLt]
    cases cls <;> rfl
  have small := tag.isLt
  apply BitVec.eq_of_toNat_eq
  rw [value, oct, BitVec.toNat_ofNat]
  split <;> omega

theorem Mode.octet_eq (m : Mode) : m.octet = if m = .service then 1 else 2 := by cases m <;> rfl

theorem LineState.octet_eq (l : LineState) : l.octet = if l = .up then 1 else 0 := by cases l <;> rfl

theorem PortStatus.octets_eq (p : PortStatus) :
    p.octets =
      [if p.mode = .service then 1 else 2, oct p.freeUrgent, oct p.freeNormal] ++ be16 p.freeOctets ++
        [oct p.discarded, oct p.flushed, if p.line = .up then 1 else 0] := by
  rw [PortStatus.octets, p.mode.octet_eq, p.line.octet_eq]

theorem ReplyReport.octets_eq (r : ReplyReport) : r.octets = [0x05, oct r.tag.toNat] ++ r.body := by
  rw [ReplyReport.octets, tagOctet_eq]
  rfl

/-- Settles O28: the choice by the queue, the slot and the store in their order, the line by the transmitter's state. -/
theorem portTransmitterChoice : Obligations.PortTransmitterChoice := by
  refine ⟨fun s running => ?choice, fun s running => ?line⟩
  case choice =>
    rw [exec_portTxChoice running]
    refine ⟨fun busy => congrArg _ (State.portChoice_of_busy busy), fun idle => ⟨fun rest queue => ?status,
      fun r rest queue filled => ?record, fun empty waits => congrArg _ (State.portChoice_of_reply idle empty waits),
      fun e es empty noReply store => ?delivery, fun empty noReply noEntry => ?nothing⟩⟩
    case status =>
      rw [State.portChoice_of_record idle queue, s.beginRecord_of_waiting]
      rfl
    case record => rw [State.portChoice_of_record idle queue, s.beginRecord_of_filled filled]
    case delivery =>
      rw [State.portChoice_of_store idle empty noReply, State.offeredDelivery_of_head store, store]
      refine ⟨fun good waits => ?_, fun notOffered => ?_⟩
      · rw [if_pos ⟨good, waits⟩]
        rfl
      · rw [if_neg fun ⟨good, waits⟩ => notOffered.elim (· good) (by simp [waits])]
        rfl
    case nothing =>
      rw [State.portChoice_of_store idle empty noReply, State.offeredDelivery, noEntry]
      rfl
  case line =>
    intro tagged closed reason detail
    refine ⟨fun r rest record queue filled => ?report, fun r rest reply slot => ?reply,
      fun e es sending store => State.portLine_of_delivery running sending store, State.portLine_of_idle running,
      State.portLine_of_aborting running⟩
    case reply => rw [State.portLine_of_reply running reply slot, r.octets_eq]
    case report =>
      have tags : ∀ tag cls, tagOctet tag cls = tagged tag cls := tagOctet_eq
      have closings : ∀ o : Closing, o.octets = closed o := fun o => by cases o <;> rfl
      have reasons : ∀ x : Reason, x.octet = reason x := fun x => by cases x <;> rfl
      have details : ∀ d : Detail, d.octets = detail d := fun d => by cases d <;> rfl
      rw [State.portLine_of_record running record queue]
      refine congrArg (fun body => LineOut.frame (withFcs body)) ?_
      cases r with
      | completion tag cls seq o => rw [Report.octets, tags, closings]
      | refusal tag cls x urgent normal octets => rw [Report.octets, tags, reasons]
      | portStatus contents =>
        cases contents with
        | none => exact absurd rfl filled
        | some p =>
          rw [Report.octets, p.octets_eq]
          rfl
      | noticeCopy kind occ d => rw [Report.octets, details]

end Sys2Proof.Machine
end

section
/-! The report queue's admission: what a cause of PORT STATUS, a REFUSAL and a discard add (R121 to R123). -/

namespace Sys2Proof.Machine

section
variable {s : State}

/-- A PORT STATUS waits in the queue or is held (R123). -/
theorem State.statusWaits_iff (s : State) :
    s.statusWaits = true ↔ s.statusHeld = true ∨ .portStatus none ∈ s.reports := by
  rw [State.statusWaits, Bool.or_eq_true, List.any_eq_true]
  simp only [Report.isWaitingStatus_iff, exists_eq_right]

/-- In BREAK, or while a PORT STATUS waits, a cause brings nothing (R123). -/
theorem State.causeStatus_of_no_cause (no : s.port = .break ∨ s.statusWaits = true) : s.causeStatus = s := by
  refine if_neg fun ⟨active, free⟩ => ?_
  rcases no with inBreak | waits
  · rw [active] at inBreak
    cases inBreak
  · exact free waits

theorem State.causeStatus_of_room (active : s.port = .active) (free : ¬ s.statusWaits = true)
    (room : s.sharedRecords < 8) : s.causeStatus = { s with reports := s.reports ++ [.portStatus none] } := by
  rw [State.causeStatus, if_pos ⟨active, free⟩, if_pos room]

theorem State.causeStatus_of_full (active : s.port = .active) (free : ¬ s.statusWaits = true)
    (full : 8 ≤ s.sharedRecords) : s.causeStatus = { s with statusHeld := true } := by
  rw [State.causeStatus, if_pos ⟨active, free⟩, if_neg (Nat.not_lt.2 full)]

/-- Shared records number fewer than 8, a held PORT STATUS among them (R122). -/
theorem State.admitsShared_iff (s : State) :
    s.admitsShared = true ↔ s.sharedRecords + (if s.statusHeld then 1 else 0) < 8 := decide_eq_true_iff

theorem State.refuse_of_room (room : s.admitsShared = true) (tag : Tag) (cls : StationClass) (reason : Reason) :
    s.refuse tag cls reason =
      { s with reports := s.reports ++ [.refusal tag cls reason s.freeUrgent s.freeNormal s.freeOutbound] } :=
  if_pos room

theorem State.refuse_of_full (full : ¬ s.admitsShared = true) (tag : Tag) (cls : StationClass) (reason : Reason) :
    s.refuse tag cls reason = s.discard := if_neg full

end

/-- Settles O24, by what waits and by the shared records. -/
theorem reportQueueAdmits : Obligations.ReportQueueAdmits := by
  intro s waits shared
  have waitsIff : s.statusWaits = true ↔ waits := s.statusWaits_iff
  refine ⟨fun no => State.causeStatus_of_no_cause (no.imp_right waitsIff.2),
    fun active free room => State.causeStatus_of_room active (mt waitsIff.1 free) room,
    fun active free full => State.causeStatus_of_full active (mt waitsIff.1 free) full,
    fun tag cls reason room => State.refuse_of_room (s.admitsShared_iff.2 room) tag cls reason,
    fun tag cls reason full => State.refuse_of_full (mt s.admitsShared_iff.1 (Nat.not_lt.2 full)) tag cls reason, rfl⟩

end Sys2Proof.Machine
end

section
/-! A raise by the state of its slot, and the NOTICE COPY it offers (R122, R176, R178, R179). -/

namespace Sys2Proof.Machine

section
variable {s : State} {k : NoticeKind} (d : Detail)

/-- Only a raise on an IDLE slot offers a copy (R179). -/
theorem State.copiesOf_of_busy (busy : s.slot k ≠ .idle) : s.copiesOf k d = [] := if_neg fun offered => busy offered.1

/-- A raise on a slot that is not IDLE moves that slot alone (R178). -/
theorem State.raise_of_busy (busy : s.slot k ≠ .idle) :
    s.raise k d = { s with slots := s.slots.set (noticeCode k) ((s.slot k).raise d) } := by
  rw [State.raise, State.copiesOf_of_busy d busy, List.append_nil]

/-- A raise on an IDLE slot makes it PENDING, and its copy joins where it is wanted and admitted (R178, R179). -/
theorem State.raise_of_idle (idle : s.slot k = .idle) :
    s.raise k d =
      { s with
        slots := s.slots.set (noticeCode k) (.pending 1 d)
        reports :=
          if s.params.noticeToStation = true ∧ s.port = .active ∧ s.admitsShared = true then
            s.reports ++ [.noticeCopy k 1 d]
          else s.reports } := by
  simp only [State.raise, State.copiesOf, idle, true_and, Slot.raise]
  split
  · rfl
  · rw [List.append_nil]

end

/-- Settles O30, by the state of the slot. -/
theorem raiseActsOnItsSlot : Obligations.RaiseActsOnItsSlot := by
  refine ⟨fun k d s => ⟨fun idle => ?idle, fun occ old pending => ?pending, fun n outstanding => ?outstanding⟩,
    rfl, fun d => ?detail⟩
  case idle =>
    rw [State.raise_of_idle d idle]
    simp only [State.admitsShared_iff]
    rfl
  case pending =>
    rw [State.raise_of_busy d (by rw [pending]; exact Slot.noConfusion), pending]
    rfl
  case outstanding =>
    rw [State.raise_of_busy d (by rw [outstanding]; exact Slot.noConfusion), outstanding]
    rfl
  case detail => cases d <;> rfl

end Sys2Proof.Machine
end

section
/-! SUPPORT. What the station side holds while the port is in BREAK, and the operations that keep it: all but those of
the station receive line leave the port and its receiver alone, and in BREAK give the station side nothing (R95, R111,
R116, R122, R129, R155, R174). -/

namespace Sys2Proof.Machine

/-! ### The relation -/

/-- The station side of a part in BREAK: the receiver hunts, nothing waits for the station or comes from it, no entry of
the return log reports to it, and the transmitter sends no report (R95, R116, R129, R155, R174). -/
structure State.StationQuiet (s : State) : Prop where
  hunt : s.srx.state = .hunt
  reports : s.reports = []
  held : s.statusHeld = false
  replies : s.replies = []
  delivery : s.delivery = []
  urgent : s.urgent = []
  normal : s.normal = []
  log : ∀ e ∈ s.log, e.origin ≠ .own → e.silent = true
  requests : ∀ r ∈ s.requests, r.isLoop = true
  session : ∀ x ∈ s.session.toList, x.owner ≠ .station
  discarded : s.discarded = 0
  flushed : s.flushed = 0
  ptx : s.ptx = .idle ∨ s.ptx = .aborting

theorem breakQuiet_iff (s : State) : BreakQuiet s ↔ (s.port = .break → s.StationQuiet) := by
  refine imp_congr_right fun _ => ?_
  constructor <;>
    exact fun
      ⟨hunt, reports, held, replies, delivery, urgent, normal, log, requests, session, discarded, flushed, ptx⟩ =>
      ⟨hunt, reports, held, replies, delivery, urgent, normal, log, requests, session, discarded, flushed, ptx⟩

/-- `t` has the port state and the station receiver of `s`, and in BREAK its station side is quiet where that of `s`
is. -/
structure State.KeepsBreak (s t : State) : Prop where
  port : t.port = s.port
  srx : t.srx = s.srx
  quiet : s.port = .break → s.StationQuiet → t.StationQuiet

theorem State.KeepsBreak.refl (s : State) : s.KeepsBreak s := ⟨rfl, rfl, fun _ q => q⟩

theorem State.KeepsBreak.trans {s t u : State} (h : s.KeepsBreak t) (k : t.KeepsBreak u) : s.KeepsBreak u where
  port := k.port.trans h.port
  srx := k.srx.trans h.srx
  quiet := fun inBreak q => k.quiet (h.port.trans inBreak) (h.quiet inBreak q)

/-- All of the state that the relation reads. -/
def State.stationPart (s : State) :=
  (s.port, s.srx, s.reports, s.statusHeld, s.replies, s.delivery, s.urgent, s.normal, s.log, s.requests, s.session,
    s.discarded, s.flushed, s.ptx)

theorem State.StationQuiet.congr {s t : State} (h : t.stationPart = s.stationPart) (q : s.StationQuiet) :
    t.StationQuiet := by
  simp only [State.stationPart, Prod.mk.injEq] at h
  obtain ⟨-, srx, reports, held, replies, delivery, urgent, normal, log, requests, session, discarded, flushed,
    ptx⟩ := h
  exact ⟨srx ▸ q.hunt, reports.trans q.reports, held.trans q.held, replies.trans q.replies, delivery.trans q.delivery,
    urgent.trans q.urgent, normal.trans q.normal, log ▸ q.log, requests ▸ q.requests, session ▸ q.session,
    discarded.trans q.discarded, flushed.trans q.flushed, ptx ▸ q.ptx⟩

/-- An operation on the rest of the state. -/
theorem State.KeepsBreak.of_stationPart {s t : State} (h : t.stationPart = s.stationPart) : s.KeepsBreak t :=
  ⟨congrArg (fun p => p.1) h, congrArg (fun p => p.2.1) h, fun _ q => q.congr h⟩

theorem State.KeepsBreak.ite {s t : State} {p : Prop} [Decidable p] (h : s.KeepsBreak t) :
    s.KeepsBreak (if p then t else s) := by
  split
  · exact h
  · exact .refl s

/-! ### Counts, raises and reports -/

theorem State.keepsBreak_countN (s : State) (c : Counter) (n : Nat) : s.KeepsBreak (s.countN c n) := .of_stationPart rfl

theorem State.keepsBreak_count (s : State) (c : Counter) : s.KeepsBreak (s.count c) := s.keepsBreak_countN c 1

/-- The report queue takes no NOTICE COPY in BREAK (R122). -/
theorem State.copiesOf_of_break {s : State} (inBreak : s.port = .break) (k : NoticeKind) (d : Detail) :
    s.copiesOf k d = [] := by
  simp [State.copiesOf, inBreak]

/-- The report queue takes no COMPLETION in BREAK (R129). -/
theorem State.completionsOf_of_break {s : State} (inBreak : s.port = .break) (o : Closing) (es : List LogEntry) :
    s.completionsOf o es = [] := by
  simp [State.completionsOf, inBreak]

theorem State.keepsBreak_raise (s : State) (k : NoticeKind) (d : Detail) : s.KeepsBreak (s.raise k d) :=
  ⟨rfl, rfl, fun inBreak q => { q with
    reports := by rw [State.raise_reports, State.copiesOf_of_break inBreak, q.reports]; rfl }⟩

theorem State.keepsBreak_placeCompletions (s : State) (o : Closing) (es : List LogEntry) :
    s.KeepsBreak (s.placeCompletions o es) :=
  ⟨rfl, rfl, fun inBreak q => { q with
    reports := by rw [State.placeCompletions_reports, State.completionsOf_of_break inBreak, q.reports]; rfl }⟩

theorem State.keepsBreak_causeStatus (s : State) : s.KeepsBreak s.causeStatus := by
  obtain ⟨_, _, e⟩ := s.causeStatus_frame
  refine ⟨by rw [e], by rw [e], fun inBreak q => ?_⟩
  rwa [State.causeStatus_of_no_cause (.inl inBreak)]

/-! ### The return log -/

/-- Entries that change neither whose they are nor whether they report. -/
theorem State.keepsBreak_log {s : State} {log : List LogEntry}
    (from_log : ∀ e ∈ log, ∃ e0 ∈ s.log, e0.origin = e.origin ∧ e0.silent = e.silent) :
    s.KeepsBreak { s with log := log } :=
  ⟨rfl, rfl, fun _ q => { q with
    log := fun e he => by
      obtain ⟨e0, he0, origin, silent⟩ := from_log e he
      rw [← origin, ← silent]
      exact q.log e0 he0 }⟩

theorem State.keepsBreak_log_of_subset {s : State} {log : List LogEntry} (sub : log ⊆ s.log) :
    s.KeepsBreak { s with log := log } :=
  State.keepsBreak_log fun e he => ⟨e, sub he, rfl, rfl⟩

theorem State.keepsBreak_closeLost (s : State) (es : List LogEntry) : s.KeepsBreak (s.closeLost es) :=
  (s.keepsBreak_countN _ _).trans (State.keepsBreak_placeCompletions _ _ _)

theorem State.keepsBreak_stripHeader (s : State) (h : Header) : s.KeepsBreak (s.stripHeader h) := by
  unfold State.stripHeader
  split
  · exact s.keepsBreak_count _
  · rename_i older e newer found
    have all := splitMatch_some found
    refine (s.keepsBreak_closeLost _).trans (State.keepsBreak_log fun x hx => ?_)
    show ∃ e0 ∈ s.log, _
    rw [all]
    rcases List.mem_append.1 hx with hx | hx
    · exact ⟨x, List.mem_append_left _ (List.mem_of_mem_filter hx), rfl, rfl⟩
    · rcases List.mem_cons.1 hx with rfl | hx
      · exact ⟨e, by simp, rfl, rfl⟩
      · exact ⟨x, by simp [hx], rfl, rfl⟩

theorem State.keepsBreak_endReturning (s : State) (good : Bool) : s.KeepsBreak (s.endReturning good) := by
  unfold State.endReturning
  split
  · exact .refl s
  · exact ((s.keepsBreak_count _).trans (State.keepsBreak_placeCompletions _ _ _)).trans
      (State.keepsBreak_log_of_subset List.eraseP_subset)

theorem State.keepsBreak_expireLog (s : State) : s.KeepsBreak s.expireLog :=
  (s.keepsBreak_closeLost _).trans (State.keepsBreak_log_of_subset (splitExpired_parts _ _ _).1.subset)

theorem State.keepsBreak_flushLog (s : State) : s.KeepsBreak s.flushLog :=
  (s.keepsBreak_placeCompletions _ _).trans (State.keepsBreak_log_of_subset (List.nil_subset _))

/-! ### The delivery store and the requests -/

/-- An empty store has no entry to change. -/
theorem State.keepsBreak_delivery {s : State} {store : List DeliveryEntry} (none : s.delivery = [] → store = []) :
    s.KeepsBreak { s with delivery := store } :=
  ⟨rfl, rfl, fun _ q => { q with delivery := none q.delivery }⟩

theorem State.keepsBreak_deliveryOctet (s : State) (v : Byte) : s.KeepsBreak (s.deliveryOctet v) :=
  State.keepsBreak_delivery fun none => by rw [none]; rfl

theorem State.keepsBreak_endDelivery (s : State) (good : Bool) : s.KeepsBreak (s.endDelivery good) := by
  unfold State.endDelivery
  split
  · exact .refl s
  · split
    · exact State.keepsBreak_delivery fun none => by rw [none]; rfl
    · exact State.keepsBreak_delivery fun none => by rw [none]; rfl

/-- Requests of the loop, where all were of the loop. -/
theorem State.keepsBreak_requests {s : State} {queue : List Request}
    (loop : (∀ r ∈ s.requests, r.isLoop = true) → ∀ r ∈ queue, r.isLoop = true) :
    s.KeepsBreak { s with requests := queue } :=
  ⟨rfl, rfl, fun _ q => { q with requests := loop q.requests }⟩

theorem State.keepsBreak_offerRequest (s : State) (sa : Address) : s.KeepsBreak (s.offerRequest sa).2 := by
  unfold State.offerRequest
  split
  · exact State.keepsBreak_requests fun loop => List.forall_mem_append.2 ⟨loop, List.forall_mem_singleton.2 rfl⟩
  · exact s.keepsBreak_count _

/-- A request that takes an octet, or is made complete, stays its link's. -/
theorem State.keepsBreak_mapRequests (s : State) (f : Request → Request) (link : ∀ r, (f r).isLoop = r.isLoop) :
    s.KeepsBreak { s with requests := s.requests.map f } :=
  State.keepsBreak_requests fun loop => List.forall_mem_map.2 fun r hr => (link r).trans (loop r hr)

theorem State.keepsBreak_requestOctet (s : State) (v : Byte) : s.KeepsBreak (s.requestOctet v) :=
  s.keepsBreak_mapRequests _ fun r => by split <;> rfl

theorem State.keepsBreak_endRequest (s : State) (good : Bool) : s.KeepsBreak (s.endRequest good) := by
  unfold State.endRequest
  split
  · exact s.keepsBreak_mapRequests _ fun r => by split <;> rfl
  · exact State.keepsBreak_requests fun loop r hr => loop r (List.mem_of_mem_filter hr)

/-! ### The loop receive line -/

theorem State.keepsBreak_rx (s : State) (rx : LoopRx) (sup : Supervisor) :
    s.KeepsBreak { s with rx := rx, sup := sup } :=
  .of_stationPart rfl

theorem State.keepsBreak_octetTimes (s : State) (n : Nat) : s.KeepsBreak (s.octetTimes n) := by
  obtain ⟨_, e⟩ := s.octetTimes_frame n
  rw [e]
  exact .of_stationPart rfl

theorem State.keepsBreak_endTransit (s : State) (good : Bool) : s.KeepsBreak (s.endTransit good) := by
  obtain ⟨_, _, e⟩ := s.endTransit_frame good
  rw [e]
  exact .of_stationPart rfl

theorem State.keepsBreak_transitOctet (s : State) (v : Byte) : s.KeepsBreak (s.transitOctet v) := .of_stationPart rfl

theorem State.keepsBreak_infoOctet (s : State) (v : Byte) : s.KeepsBreak (s.infoOctet v) := by
  unfold State.infoOctet
  split
  · exact .refl s
  · exact ((s.keepsBreak_transitOctet v).ite.trans (State.keepsBreak_deliveryOctet _ v).ite).trans
      (State.keepsBreak_requestOctet _ v).ite

theorem State.keepsBreak_endBlocks (s : State) (good : Bool) : s.KeepsBreak (s.endBlocks good) := by
  unfold State.endBlocks
  split
  · exact .refl s
  · exact (((s.keepsBreak_endTransit good).ite.trans (State.keepsBreak_endDelivery _ good).ite).trans
      (State.keepsBreak_endRequest _ good).ite).trans (State.keepsBreak_endReturning _ good).ite

theorem State.keepsBreak_frameEnd (s : State) (c : EndCond) : s.KeepsBreak (s.frameEnd c) := by
  refine (s.keepsBreak_endBlocks c.isGood).trans ?_
  unfold State.frameEnd
  dsimp only
  split <;> exact .of_stationPart rfl

theorem State.keepsBreak_superviseFlag (s : State) (c : Option EndCond) : s.KeepsBreak (s.superviseFlag c) := by
  unfold State.superviseFlag
  dsimp only
  split
  · exact (s.keepsBreak_rx s.rx _).trans (State.keepsBreak_raise _ _ _)
  · exact s.keepsBreak_rx s.rx _

theorem State.keepsBreak_loopFlag (s : State) (tail : List Bool) : s.KeepsBreak (s.loopFlag tail) := by
  unfold State.loopFlag
  dsimp only
  refine State.KeepsBreak.trans ?_ (State.keepsBreak_superviseFlag _ _)
  split
  · exact (s.keepsBreak_frameEnd _).trans (State.keepsBreak_rx _ _ _)
  · exact s.keepsBreak_rx _ _

theorem State.keepsBreak_abortFrame (s : State) (reason : AbortReason) : s.KeepsBreak (s.abortFrame reason) := by
  unfold State.abortFrame
  split
  · exact s.keepsBreak_frameEnd _
  · exact .refl s

theorem State.keepsBreak_loopOnes (s : State) (run : Nat) : s.KeepsBreak (s.loopOnes run) :=
  (s.keepsBreak_abortFrame .abort).trans (State.keepsBreak_rx _ _ _)

theorem State.keepsBreak_silence (s : State) : s.KeepsBreak s.silence :=
  .ite (((s.keepsBreak_raise _ _).trans (State.keepsBreak_abortFrame _ .silence)).trans (State.keepsBreak_rx _ _ _))

/-! ### The eighth octet -/

theorem State.keepsBreak_reserveTransit (s : State) (h : Header) (marks : Option Mark) :
    s.KeepsBreak (s.reserveTransit h marks) := by
  unfold State.reserveTransit
  split
  · exact .of_stationPart rfl
  · exact (s.keepsBreak_count _).trans (State.keepsBreak_raise _ _ _)

/-- A reservation is refused in BREAK (R111). -/
theorem State.keepsBreak_reserveDelivery (s : State) (h : Header) (label : Option Byte) :
    s.KeepsBreak (s.reserveDelivery h label).2 := by
  unfold State.reserveDelivery
  split
  · rename_i room
    refine ⟨rfl, rfl, fun inBreak _ => ?_⟩
    have active := ((s.deliveryRoom_iff h.declared).1 room).1
    rw [inBreak] at active
    cases active
  · exact (s.keepsBreak_count _).trans (State.keepsBreak_raise _ _ _)

theorem State.keepsBreak_hitMatched (s : State) (f : Finding) : s.KeepsBreak (s.hitMatched f) := by
  obtain ⟨_, e, -⟩ := s.hitMatched_frame f
  rw [e]
  exact .of_stationPart rfl

theorem State.keepsBreak_verdict (s : State) (r : Option VerdictRecord) : s.KeepsBreak { s with verdict := r } :=
  .of_stationPart rfl

theorem State.keepsBreak_judgeHeader (s : State) (h : Header) (f : Finding) : s.KeepsBreak (s.judgeHeader h f) := by
  have recorded : ∀ {t : State} (r : Option VerdictRecord), s.KeepsBreak t → s.KeepsBreak { t with verdict := r } :=
    fun r k => k.trans (State.keepsBreak_verdict _ r)
  have hit := s.keepsBreak_hitMatched f
  unfold State.judgeHeader
  dsimp only
  split
  · exact recorded _ (s.keepsBreak_count _)
  · exact recorded _ (s.keepsBreak_stripHeader h)
  · exact recorded _ ((s.keepsBreak_count _).trans (State.keepsBreak_raise _ _ _))
  · exact recorded _ ((s.keepsBreak_offerRequest _).trans (State.keepsBreak_reserveTransit _ _ _))
  · exact recorded _ (hit.trans (State.keepsBreak_reserveTransit _ _ _))
  · exact recorded _
      ((hit.trans (State.keepsBreak_reserveDelivery _ _ _)).trans (State.keepsBreak_reserveTransit _ _ _))
  · exact recorded _ (hit.trans (State.keepsBreak_count _ _))

theorem State.keepsBreak_loopOctet (s : State) (v : Byte) (rest : List Bool) : s.KeepsBreak (s.loopOctet v rest) := by
  have received : ∀ rx, s.KeepsBreak { s with rx := rx } := fun rx => s.keepsBreak_rx rx s.sup
  unfold State.loopOctet
  split
  · exact received _
  · exact received _
  · unfold State.frameOctet
    dsimp only
    split
    · exact ((received _).trans (State.keepsBreak_frameEnd _ _)).trans (State.keepsBreak_rx _ _ _)
    split
    · exact (received _).trans (State.keepsBreak_judgeHeader _ _ _)
    split
    · exact (received _).trans (State.keepsBreak_infoOctet _ v)
    · exact received _

/-! ### The loop transmitter and the notices -/

theorem State.keepsBreak_causeIfWasFull (s : State) (before : Nat) : s.KeepsBreak (s.causeIfWasFull before) :=
  .ite s.keepsBreak_causeStatus

/-- An own frame's entry is not the station's, and in BREAK no station frame waits (R81, R95). -/
theorem State.keepsBreak_insert (s : State) : s.KeepsBreak s.insert := by
  refine State.insert_induction (.refl s) (fun f rest _ => ?_) (fun f rest queue => ?_) fun f rest queue => ?_
  · refine ⟨rfl, rfl, fun _ q => { q with log := ?_ }⟩
    show ∀ e ∈ s.log ++ [s.newEntry .own f.header], _
    exact List.forall_mem_append.2 ⟨q.log, List.forall_mem_singleton.2 fun station => absurd rfl station⟩
  · refine State.KeepsBreak.trans ?_ (State.keepsBreak_causeIfWasFull _ _)
    exact ⟨rfl, rfl, fun _ q => by cases q.urgent.symm.trans queue⟩
  · refine State.KeepsBreak.trans ?_ (State.keepsBreak_causeIfWasFull _ _)
    exact ⟨rfl, rfl, fun _ q => by cases q.normal.symm.trans queue⟩

theorem State.keepsBreak_arbitrate (s : State) : s.KeepsBreak s.arbitrate := by
  unfold State.arbitrate
  split
  · split
    · exact .ite (.of_stationPart rfl)
    · exact s.keepsBreak_insert
  · exact .refl s

theorem State.keepsBreak_underrun (s : State) : s.KeepsBreak s.underrun := by
  unfold State.underrun
  split
  · exact .refl s
  · rename_i e es _
    split
    · have raised := State.keepsBreak_raise (s.count .underrun) .underrun (.address e.header.sa)
      exact ((s.keepsBreak_count .underrun).trans raised).trans (.of_stationPart rfl)
    · exact .refl s

theorem State.keepsBreak_completeForward (s : State) : s.KeepsBreak s.completeForward := by
  obtain ⟨_, _, _, e⟩ := s.completeForward_frame
  rw [e]
  exact .of_stationPart rfl

theorem State.keepsBreak_endInsertion (s : State) : s.KeepsBreak s.endInsertion := by
  unfold State.endInsertion
  split
  · exact .of_stationPart rfl
  · exact .refl s

theorem State.keepsBreak_completeAbort (s : State) : s.KeepsBreak s.completeAbort := .ite (.of_stationPart rfl)

theorem State.keepsBreak_retryDeadline (s : State) (k : NoticeKind) : s.KeepsBreak (s.retryDeadline k) := by
  obtain ⟨_, _, e⟩ := s.retryDeadline_frame k
  rw [e]
  exact .of_stationPart rfl

theorem State.keepsBreak_resendWaiting (s : State) : s.KeepsBreak s.resendWaiting := by
  obtain ⟨_, _, e⟩ := s.resendWaiting_frame
  rw [e]
  exact .of_stationPart rfl

theorem State.keepsBreak_placeNotices (s : State) : s.KeepsBreak s.placeNotices := by
  obtain ⟨_, _, _, e⟩ := s.placeNotices_frame
  rw [e]
  exact .of_stationPart rfl

/-! ### The port's transmitter -/

/-- With nothing to send the transmitter stays as it is (R128). -/
theorem State.keepsBreak_portChoice (s : State) : s.KeepsBreak s.portChoice := by
  obtain ⟨_, _, _, _, _, e⟩ := s.portChoice_frame
  refine ⟨by rw [e], by rw [e], fun _ q => ?_⟩
  rcases q.ptx with idle | aborting
  · rw [State.portChoice_of_store idle q.reports q.replies, State.offeredDelivery, q.delivery]
    exact q
  · rwa [State.portChoice_of_busy (by rw [aborting]; decide)]

/-- No report is being sent in BREAK (R129). -/
theorem State.keepsBreak_reportSent (s : State) : s.KeepsBreak s.reportSent := by
  obtain ⟨_, _, _, _, _, _, e⟩ := s.reportSent_frame
  refine ⟨by rw [e], by rw [e], fun _ q => ?_⟩
  unfold State.reportSent
  rcases q.ptx with ptx | ptx
  · rwa [ptx]
  · rwa [ptx]

theorem State.keepsBreak_portAbortSent (s : State) : s.KeepsBreak s.portAbortSent :=
  .ite ⟨rfl, rfl, fun _ q => { q with ptx := .inl rfl }⟩

/-! ### Sessions -/

theorem State.keepsBreak_session_none (s : State) : s.KeepsBreak { s with session := none } :=
  ⟨rfl, rfl, fun _ q => { q with session := fun _ none => absurd none List.not_mem_nil }⟩

theorem State.keepsBreak_expireSession (s : State) : s.KeepsBreak s.expireSession := by
  unfold State.expireSession
  split
  · exact .refl s
  · exact .ite (s.keepsBreak_session_none.trans (State.keepsBreak_raise _ _ _))

end Sys2Proof.Machine
end

section
/-! The port state and its receiver over every command: the station receive line's events, requests carried out, and the
step law (R116, R122, R129, R155, R174). -/

namespace Sys2Proof.Machine

/-! ### Sessions that a request leaves (R158, R159, R174) -/

/-- A session in `t` is the requester's, or has the owner it has in `s`. -/
def State.OwnsSession (s : State) (who : Owner) (t : State) : Prop :=
  ∀ x, t.session = some x → x.owner = who ∨ ∃ y, s.session = some y ∧ y.owner = x.owner

section
variable {s t : State} {who : Owner}

theorem State.OwnsSession.of_same (same : t.session = s.session) : s.OwnsSession who t :=
  fun x hx => .inr ⟨x, same ▸ hx, rfl⟩

theorem State.OwnsSession.of_none (none : t.session = none) : s.OwnsSession who t :=
  fun x hx => absurd (none.symm.trans hx) (Option.some_ne_none x).symm

theorem State.OwnsSession.of_own {x : Session} (own : x.owner = who) (session : t.session = some x) :
    s.OwnsSession who t :=
  fun _ hy => .inl (Option.some.inj (session.symm.trans hy) ▸ own)

theorem State.ifAuthorized_ownsSession {r : Requester} {run : State × Answer} (h : s.OwnsSession who run.1) :
    s.OwnsSession who (s.ifAuthorized r run).1 := by
  unfold State.ifAuthorized
  split
  · exact h
  · exact .of_same rfl

end

/-- An edit of the owner's session leaves it the owner's, or closes it. -/
theorem State.asOwner_ownsSession {s : State} {r : Requester} {run : Session → State → State × Answer}
    (h : ∀ (x : Session) (t : State), t.session = some x →
      (run x t).1.session = none ∨ ∃ y, (run x t).1.session = some y ∧ y.owner = x.owner) :
    s.OwnsSession r.owner (s.asOwner r run).1 := by
  unfold State.asOwner
  apply State.ifAuthorized_ownsSession
  split
  · exact .of_same rfl
  · rename_i x _
    split
    · rename_i own
      rcases h { x with lastCommand := s.timer } { s with session := some { x with lastCommand := s.timer } } rfl with
        none | ⟨y, session, owner⟩
      · exact .of_none none
      · exact .of_own (owner.trans own) session
    · exact .of_same rfl

/-- No administrative command gives a session to another than its requester. -/
theorem State.runOf_ownsSession {c : Command} (hc : c.reachesReceiver = false) (r : Request) (s : State) :
    s.OwnsSession r.source.owner (State.runOf (some c) r s).1 := by
  cases c with
  | paramWrite => cases hc
  | restart => cases hc
  | status => exact .of_same rfl
  | paramRead =>
    show s.OwnsSession _ (State.runParamRead r s).1
    unfold State.runParamRead
    repeat' split
    all_goals exact .of_same rfl
  | listRead =>
    show s.OwnsSession _ (State.runListRead r s).1
    unfold State.runListRead
    repeat' split
    all_goals exact .of_same rfl
  | listWrite =>
    show s.OwnsSession _ (State.runListWrite r s).1
    unfold State.runListWrite State.ifAuthorized State.writeList
    repeat' split
    all_goals exact .of_same rfl
  | tableRead =>
    show s.OwnsSession _ (State.runTableRead r s).1
    unfold State.runTableRead
    repeat' split
    all_goals exact .of_same rfl
  | countersRead =>
    show s.OwnsSession _ (State.runCountersRead r s).1
    unfold State.runCountersRead State.ifAuthorized State.readCounters
    repeat' split
    all_goals exact .of_same rfl
  | sessionOpen =>
    show s.OwnsSession _ (State.runSessionOpen r s).1
    unfold State.runSessionOpen
    apply State.ifAuthorized_ownsSession
    split
    · exact .of_own rfl rfl
    · split
      · exact .of_own ‹_› rfl
      · exact .of_same rfl
  | entryInsert =>
    show s.OwnsSession _ (State.runEntryInsert r s).1
    unfold State.runEntryInsert
    split
    · refine State.asOwner_ownsSession fun x t hx => .inr ?_
      unfold State.insertEntry
      repeat' split
      · exact ⟨x, hx, rfl⟩
      · exact ⟨x, hx, rfl⟩
      · exact ⟨x, hx, rfl⟩
      · exact ⟨x, hx, rfl⟩
      · exact ⟨_, rfl, rfl⟩
    · exact .of_same rfl
  | entryReplace =>
    show s.OwnsSession _ (State.runEntryReplace r s).1
    unfold State.runEntryReplace
    split
    · refine State.asOwner_ownsSession fun x t hx => .inr ?_
      unfold State.replaceEntry
      repeat' split
      · exact ⟨x, hx, rfl⟩
      · exact ⟨x, hx, rfl⟩
      · exact ⟨x, hx, rfl⟩
      · exact ⟨_, rfl, rfl⟩
    · exact .of_same rfl
  | entryRemove =>
    show s.OwnsSession _ (State.runEntryRemove r s).1
    unfold State.runEntryRemove
    split
    · refine State.asOwner_ownsSession fun x t hx => .inr ?_
      unfold State.removeEntry
      split
      · exact ⟨x, hx, rfl⟩
      · exact ⟨_, rfl, rfl⟩
    · exact .of_same rfl
  | sessionCommit => exact State.asOwner_ownsSession fun _ _ _ => .inl rfl
  | sessionDiscard => exact State.asOwner_ownsSession fun _ _ _ => .inl rfl
  | noticeAck =>
    show s.OwnsSession _ (State.runNoticeAck r s).1
    unfold State.runNoticeAck State.ifAuthorized State.ackNotice
    repeat' split
    all_goals exact .of_same rfl

/-! ### Requests carried out (R136, R140, R153) -/

theorem Request.exists_source_of_isLoop {r : Request} (loop : r.isLoop = true) : ∃ sa, r.source = .loop sa := by
  unfold Request.isLoop at loop
  split at loop
  · exact ⟨_, ‹_›⟩
  · cases loop

theorem State.keepsBreak_afterWrite (s : State) (p : Param) : s.KeepsBreak (s.afterWrite p) := by
  unfold State.afterWrite
  split
  · exact s.keepsBreak_expireLog
  · exact s.keepsBreak_expireSession
  · exact s.keepsBreak_silence
  · exact .refl s

theorem State.keepsBreak_runParamWrite (r : Request) (s : State) : s.KeepsBreak (State.runParamWrite r s).1 := by
  have written : ∀ ps, s.KeepsBreak { s with params := ps } := fun _ => .of_stationPart rfl
  unfold State.runParamWrite State.ifAuthorized State.writeParam
  repeat' split
  · exact .refl s
  · exact .refl s
  · exact (written _).trans (State.keepsBreak_afterWrite _ _)
  · exact .refl s
  · exact .refl s

/-- In BREAK a RESTART flushes no station frame and aborts no DELIVERY (R153). -/
theorem State.keepsBreak_restart {s : State} {r : Request} (hr : r ∈ s.requests) : s.KeepsBreak (s.restart r) := by
  have queues : s.KeepsBreak s.restartLoop.restartQueues :=
    ⟨rfl, rfl, fun _ q => { q with
      delivery := rfl
      urgent := rfl
      normal := rfl
      ptx := by
        show s.ptx.abortDelivery = _ ∨ s.ptx.abortDelivery = _
        exact q.ptx.imp (congrArg PortTx.abortDelivery) (congrArg PortTx.abortDelivery) }⟩
  have flushed := queues.trans (State.keepsBreak_flushLog _)
  have counted : s.KeepsBreak { s.restartLoop.restartQueues.flushLog with
      flushed := saturate (s.flushed + (s.urgent.length + s.normal.length)) } :=
    ⟨rfl, rfl, fun inBreak q => { flushed.quiet inBreak q with
      flushed := by
        show saturate (s.flushed + (s.urgent.length + s.normal.length)) = 0
        rw [q.flushed, q.urgent, q.normal]
        rfl }⟩
  have port : s.KeepsBreak (s.restartLoop.restartQueues.flushLog.restartPort (s.urgent.length + s.normal.length)) :=
    counted.trans (State.keepsBreak_causeStatus _)
  generalize hu : s.restartLoop.restartQueues.flushLog.restartPort (s.urgent.length + s.normal.length) = u at port
  have alone : s.KeepsBreak { u with requests := [r], session := none, slots := Vector.replicate 8 .idle } :=
    ⟨port.port, port.srx, fun inBreak q => { port.quiet inBreak q with
      requests := List.forall_mem_singleton.2 (q.requests r hr)
      session := fun _ none => absurd none List.not_mem_nil }⟩
  have restarted : s.restart r =
      ({ u with requests := [r], session := none, slots := Vector.replicate 8 .idle } : State).raise .started
        r.source.detail := by
    rw [← hu]
    rfl
  rw [restarted]
  exact alone.trans (State.keepsBreak_raise _ _ _)

theorem State.keepsBreak_runOf {s : State} {r : Request} (hr : r ∈ s.requests) (c : Option Command) :
    s.KeepsBreak (State.runOf c r s).1 := by
  cases c with
  | none => exact .refl s
  | some c =>
    cases hc : c.reachesReceiver with
    | false =>
      have owned := State.runOf_ownsSession hc r s
      obtain ⟨_, _, _, _, _, _, _, e⟩ := State.runOf_administers hc r s
      rw [e] at owned ⊢
      refine ⟨rfl, rfl, fun _ q => { q with session := fun x hx => ?_ }⟩
      rcases owned x (Option.mem_toList.1 hx) with requester | ⟨y, hy, same⟩
      · obtain ⟨_, loop⟩ := Request.exists_source_of_isLoop (q.requests r hr)
        rw [requester, loop]
        exact Owner.noConfusion
      · exact same ▸ q.session y (Option.mem_toList.2 hy)
    | true =>
      cases c with
      | paramWrite => exact State.keepsBreak_runParamWrite r s
      | restart =>
        show s.KeepsBreak (s.ifAuthorized r.source (s.restart r, .ok [])).1
        unfold State.ifAuthorized
        split
        · exact State.keepsBreak_restart hr
        · exact .refl s
      | _ => cases hc

/-- In BREAK every request is the loop's, so its reply takes no place of the reply slot (R140, R155). -/
theorem State.keepsBreak_carryOut {s : State} {r : Request} (hr : r ∈ s.requests) : s.KeepsBreak (s.carryOut r) := by
  have run := State.keepsBreak_runOf hr r.command
  rw [State.carryOut, State.carry]
  generalize State.runOf r.command r s = x at run ⊢
  obtain ⟨_, _, e⟩ := x.1.reply_frame r x.2
  refine ⟨by rw [e]; exact run.port, by rw [e]; exact run.srx, fun inBreak q => ?_⟩
  obtain ⟨_, loop⟩ := Request.exists_source_of_isLoop (q.requests r hr)
  have after := run.quiet inBreak q
  rw [State.reply, loop]
  exact { after with requests := fun p hp => after.requests p (List.mem_of_mem_tail hp) }

theorem State.keepsBreak_settle (s : State) : s.KeepsBreak s.settle := by
  have engine : s.KeepsBreak s.engine := by
    refine State.engine_induction (.refl s) fun t r ready k => ?_
    obtain ⟨rest, queue, -⟩ := State.readyHead_some ready
    exact k.trans (State.keepsBreak_carryOut (queue ▸ List.mem_cons_self))
  exact engine.trans (State.keepsBreak_placeNotices _)

/-! ### The invariant -/

/-- What holds of the port between two steps: the station side is quiet in BREAK, and while the port is ACTIVE a
receiver that hunts has seen fewer than 32 zeros in a row. -/
structure State.PortSound (s : State) : Prop where
  quiet : s.port = .break → s.StationQuiet
  short : ZeroRunShort s

theorem portSound_iff (s : State) : s.PortSound ↔ BreakQuiet s ∧ ZeroRunShort s := by
  rw [breakQuiet_iff]
  exact ⟨fun ⟨quiet, short⟩ => ⟨quiet, short⟩, fun ⟨quiet, short⟩ => ⟨quiet, short⟩⟩

theorem State.PortSound.of_keepsBreak {s t : State} (h : s.PortSound) (k : s.KeepsBreak t) : t.PortSound where
  quiet := fun inBreak => k.quiet (k.port ▸ inBreak) (h.quiet (k.port ▸ inBreak))
  short := by
    unfold ZeroRunShort
    rw [k.port, k.srx]
    exact h.short

theorem State.portSound_of_active {s : State} (active : s.port = .active)
    (short : s.srx.state = .hunt → s.srx.zeroRun < 32) : s.PortSound where
  quiet := fun inBreak => by
    rw [active] at inBreak
    cases inBreak
  short := fun _ => short

theorem State.portSound_of_break {s : State} (inBreak : s.port = .break) (quiet : s.StationQuiet) : s.PortSound where
  quiet := fun _ => quiet
  short := fun active => by
    rw [inBreak] at active
    cases active

/-- A receiver in FILL or FRAME is that of an ACTIVE port (R115, R116). -/
theorem State.PortSound.active {s : State} (h : s.PortSound) (other : s.srx.state ≠ .hunt) : s.port = .active := by
  cases port : s.port
  · exact absurd (h.quiet port).hunt other
  · rfl

/-! ### The station receive line (R115 to R117, R129) -/

/-- A break that begins in HUNT leaves the station side quiet (R95, R129, R155, R174). -/
theorem State.breakEffects_portSound {s : State} (hunt : s.srx.state = .hunt) : s.breakEffects.PortSound := by
  refine State.portSound_of_break rfl
    { hunt := hunt, reports := rfl, held := rfl, replies := rfl, delivery := rfl, urgent := rfl, normal := rfl,
      discarded := rfl, flushed := rfl, log := ?log, requests := ?requests, session := ?session, ptx := ?ptx }
  case log =>
    refine List.forall_mem_map.2 fun e _ station => ?_
    have station : e.origin ≠ .own := station
    simp [LogEntry.silence, station]
  case requests => exact fun r hr => (List.mem_filter.1 hr).2
  case session =>
    intro x hx
    rw [s.breakEffects_eq, Option.mem_toList] at hx
    exact of_decide_eq_true (Option.filter_eq_some_iff.1 hx).2
  case ptx =>
    show s.ptx.abort = _ ∨ s.ptx.abort = _
    rw [s.ptx.abort_eq]
    split
    · exact .inl rfl
    · exact .inr rfl

/-- The break on entering HUNT takes the zero run of 32 or more (R116). -/
theorem State.breakInHunt_portSound {s : State} (active : s.port = .active) (hunt : s.srx.state = .hunt) :
    s.breakInHunt.PortSound := by
  rw [s.breakInHunt_eq]
  split
  · exact State.breakEffects_portSound hunt
  · rename_i no
    exact State.portSound_of_active active fun _ => Nat.not_le.1 fun long => no ⟨active, hunt, long⟩

theorem State.startBreak_portSound {s : State} (h : s.PortSound) (bits : List Bool) :
    (s.startBreak bits).PortSound := by
  unfold State.startBreak
  split
  · rename_i within
    obtain ⟨-, hunt, -⟩ := (s.breakWithin_iff bits).1 within
    exact State.breakEffects_portSound hunt
  · exact h

theorem State.endBreak_portSound {s : State} (h : s.PortSound) : s.endBreak.PortSound := by
  unfold State.endBreak
  split
  · obtain ⟨_, _, e⟩ := State.causeStatus_frame { s with port := .active, srx := s.srx.flag }
    rw [e]
    exact State.portSound_of_active rfl StationRxState.noConfusion
  · exact h

theorem State.discard_port (s : State) : s.discard.port = s.port := by
  obtain ⟨_, _, _, _, e⟩ := s.discard_frame
  rw [e]

theorem State.discard_srx (s : State) : s.discard.srx = s.srx := by
  obtain ⟨_, _, _, _, e⟩ := s.discard_frame
  rw [e]

/-- A frame discarded by a receiver that fills, or hunts with a short zero run. -/
theorem State.discard_portSound {s : State} (active : s.port = .active)
    (short : s.srx.state = .hunt → s.srx.zeroRun < 32) : s.discard.PortSound :=
  State.portSound_of_active (s.discard_port.trans active) (s.discard_srx ▸ short)

theorem State.stationExcess_portSound {s : State} (active : s.port = .active) (v : Byte) (rest : List Bool) :
    (s.stationExcess v rest).PortSound := by
  unfold State.stationExcess
  refine State.breakInHunt_portSound ?_ ?_
  · rw [State.discard_port]
    exact active
  · rw [State.discard_srx]

theorem StationRx.state_of_atExcess {rx : StationRx} (h : rx.atExcess = true) : rx.state ≠ .hunt := by
  intro hunt
  rw [StationRx.atExcess_outside (.inl hunt)] at h
  cases h

/-- An octet that is not excess neither leads to HUNT nor out of it (R115). -/
theorem StationRx.take_hunt_iff (rx : StationRx) (v : Byte) : (rx.take v).state = .hunt ↔ rx.state = .hunt := by
  unfold StationRx.take
  split
  · exact Iff.rfl
  · rename_i fill
    simp [fill]
  · rename_i frame
    simp [frame]

theorem StationRx.take_zeroRun (rx : StationRx) (v : Byte) : (rx.take v).zeroRun = rx.zeroRun := by
  unfold StationRx.take
  split <;> rfl

theorem State.stationOctet_portSound {s : State} (h : s.PortSound) (v : Byte) (rest : List Bool) :
    (s.stationOctet v rest).PortSound := by
  have hunts : ((s.srx.passOctet v rest).take v).state = .hunt ↔ s.srx.state = .hunt := StationRx.take_hunt_iff _ v
  unfold State.stationOctet
  dsimp only
  split
  · rename_i excess
    exact State.stationExcess_portSound (h.active (StationRx.state_of_atExcess excess)) v rest
  split
  · rename_i within
    obtain ⟨-, hunt, -⟩ := (s.breakWithin_iff _).1 within
    exact State.breakEffects_portSound (hunts.2 hunt)
  · rename_i no
    refine ⟨fun inBreak => ?quiet, fun active hunt => Nat.not_le.1 fun long => no (decide_eq_true ?reaches)⟩
    case quiet =>
      have q := h.quiet inBreak
      exact { q with hunt := hunts.2 q.hunt }
    case reaches =>
      have run : ((s.srx.passOctet v rest).take v).zeroRun = zerosAfter s.srx.zeroRun (s.srx.octetLine v rest) :=
        StationRx.take_zeroRun _ v
      exact ⟨active, hunts.1 hunt, (run ▸ long).trans (zerosAfter_le_zeroPeak _ _)⟩

theorem State.stationFlag_portSound {s : State} (h : s.PortSound) : s.stationFlag.PortSound := by
  unfold State.stationFlag
  split
  · exact State.portSound_of_active ‹_› StationRxState.noConfusion
  · exact State.portSound_of_active ‹_› StationRxState.noConfusion
  · exact h

theorem State.stationAbort_portSound {s : State} (h : s.PortSound) (idle : Bool) : (s.stationAbort idle).PortSound := by
  unfold State.stationAbort
  split
  · exact h
  · exact ⟨fun inBreak => { h.quiet inBreak with hunt := rfl }, fun _ _ => Nat.zero_lt_succ _⟩

theorem State.stationDiscard_portSound {s : State} (h : s.PortSound) (how : StationEnd) :
    (s.stationDiscard how).PortSound := by
  unfold State.stationDiscard
  split
  · rename_i frame
    have active := h.active (by rw [frame]; exact StationRxState.noConfusion)
    split
    · split
      · exact h
      · exact State.discard_portSound active StationRxState.noConfusion
    · split
      · exact State.stationExcess_portSound active _ _
      · exact h
    · exact State.discard_portSound active fun _ => Nat.zero_lt_succ _
  · exact h

theorem State.stationGood_portSound {s : State} (h : s.PortSound) : s.stationGood.PortSound := by
  unfold State.stationGood
  split
  · rename_i f info frame
    have active := h.active (by rw [frame]; exact StationRxState.noConfusion)
    split
    · obtain ⟨_, _, _, _, _, _, _, _, e⟩ :=
        State.accept_frame { s with srx := s.srx.flag } (submissionOf f info)
      rw [e]
      exact State.portSound_of_active active StationRxState.noConfusion
    · exact h
  · exact h

/-! ### Every command -/

theorem blockEffect_portSound (c : Instr) {s : State} (h : s.PortSound) : (blockEffect c s).PortSound := by
  have quiet : ∀ {t}, s.KeepsBreak t → t.PortSound := h.of_keepsBreak
  cases c with
  | loopFlag tail times => exact quiet ((s.keepsBreak_octetTimes times).trans (State.keepsBreak_loopFlag _ tail))
  | loopOctet v rest times => exact quiet ((s.keepsBreak_octetTimes times).trans (State.keepsBreak_loopOctet _ v rest))
  | loopAbort => exact quiet (s.keepsBreak_loopOnes 7)
  | lineIdle => exact quiet (s.keepsBreak_loopOnes 15)
  | lineSilenceDeadline => exact quiet s.keepsBreak_silence
  | arbiterChoice => exact quiet s.keepsBreak_arbitrate
  | underrun times => exact quiet ((s.keepsBreak_octetTimes times).trans (State.keepsBreak_underrun _))
  | forwardComplete => exact quiet s.keepsBreak_completeForward
  | insertionEnd => exact quiet s.keepsBreak_endInsertion
  | abortComplete => exact quiet s.keepsBreak_completeAbort
  | returnTimeoutExpiry => exact quiet s.keepsBreak_expireLog
  | portBreak bits => exact State.startBreak_portSound h bits
  | portBreakEnd => exact State.endBreak_portSound h
  | stationFrameGood => exact State.stationGood_portSound h
  | stationFrameDiscard how => exact State.stationDiscard_portSound h how
  | portTxChoice => exact quiet s.keepsBreak_portChoice
  | portReportSent => exact quiet s.keepsBreak_reportSent
  | portTxAbortComplete => exact quiet s.keepsBreak_portAbortSent
  | sessionTimeoutExpiry => exact quiet s.keepsBreak_expireSession
  | noticeRetryDeadline k => exact quiet (s.keepsBreak_retryDeadline k)
  | stationFlag tail => exact State.stationFlag_portSound h
  | stationOctet v rest => exact State.stationOctet_portSound h v rest
  | stationAbort idle => exact State.stationAbort_portSound h idle
  | _ => exact h

theorem State.settle_portSound {s : State} (h : s.PortSound) : s.settle.PortSound := h.of_keepsBreak s.keepsBreak_settle

/-- The port powers on in BREAK, whatever else the state holds (R132). -/
theorem portSound_of_powerOn {s : State} (h : s.stationPart = State.reset.stationPart) : s.PortSound := by
  obtain ⟨-, -, -, -, -, -, quiet, short, -⟩ := resetSatisfiesInvariants
  exact ((portSound_iff _).2 ⟨quiet, short⟩).of_keepsBreak (.of_stationPart h)

theorem exec_portSound {c : Instr} {s t : State} (h : s.PortSound) (hn : exec c s = .next t) : t.PortSound := by
  have command : (∀ g m, c ≠ .powerOnReset g m) → c ≠ .powerOnResetAssert → t.PortSound := by
    intro release assert
    have block := blockEffect_portSound c h
    rcases exec_cases hn release assert with same | same | same | same <;> rw [same]
    · exact h
    · exact block
    · exact State.settle_portSound block
    · exact (State.settle_portSound h).of_keepsBreak (State.keepsBreak_resendWaiting _)
  cases c with
  | powerOnReset g m =>
    obtain rfl := Host.Outcome.next.inj hn
    exact portSound_of_powerOn rfl
  | powerOnResetAssert =>
    obtain rfl := Host.Outcome.next.inj hn
    exact portSound_of_powerOn rfl
  | _ => exact command (by simp) (by simp)

/-- Settles O56: a command keeps the port sound, and a millisecond touches nothing of it. -/
theorem stepKeepsBreakQuiet : Obligations.StepKeepsBreakQuiet := by
  intro s t h hn
  have sound := (portSound_iff s).2 h
  refine (portSound_iff t).1 ?_
  unfold step at hn
  split at hn
  · obtain rfl := Host.Outcome.next.inj hn
    refine sound.of_keepsBreak ?_
    unfold State.tick
    split <;> exact .of_stationPart rfl
  · rename_i c rest _
    have waiting : s.KeepsBreak { s with pending := rest } := .of_stationPart rfl
    exact exec_portSound (sound.of_keepsBreak waiting) hn

end Sys2Proof.Machine
end

section
/-! A GOOD station frame: the acceptance checks in their order (R68, R73, R114, R118 to R120, R135). -/

namespace Sys2Proof.Machine

/-! ### The closing flag (R11, R115) -/

theorem RxFrame.fcsGood_of_check {f : RxFrame} {lo hi : Byte} (check : f.check = [lo, hi])
    (fcs : ~~~ (hi ++ lo : Word16) = f.fcs) : f.fcsGood = true := by
  rw [RxFrame.fcsGood, check]
  exact decide_eq_true fcs

theorem exec_stationFrameGood {s : State} (running : s.resetAsserted = false) :
    exec .stationFrameGood s = .next s.stationGood.settle := State.event_of_released State.stationGood running

theorem State.stationGood_of_frame {s : State} {f : RxFrame} {info : List Byte} (frame : s.srx.state = .frame f info)
    (good : f.judge 1 false = .good) :
    s.stationGood = ({ s with srx := ⟨.fill, 0, 1, []⟩ } : State).accept (submissionOf f info) := by
  rw [State.stationGood, frame]
  exact if_pos good

/-! ### The checks (R118) -/

section
variable {s : State} {m : StationSubmission}

theorem State.accept_of_repeater (repeater : s.mode = .repeater) :
    s.accept m = s.refuse m.tag m.cls .notInService := if_pos repeater

section
variable (service : s.mode = .service)
include service

theorem State.accept_of_long (long : 512 < m.header.declared) : s.accept m = s.refuse m.tag m.cls .badHeader := by
  rw [State.accept, if_neg (by rw [service]; decide), if_pos long]

variable (short : m.header.declared ≤ 512)
include short

theorem State.accept_of_local (manage : m.header.da = s.strapped ∧ m.header.kind = kindManage) :
    s.accept m = s.offerLocal m := by
  rw [State.accept, if_neg (by rw [service]; decide), if_neg (Nat.not_lt.2 short), if_pos manage]

variable (data : ¬ (m.header.da = s.strapped ∧ m.header.kind = kindManage))
include data

theorem State.accept_of_foreign (foreign : ¬ s.isIdentity m.header.sa = true) :
    s.accept m = s.refuse m.tag m.cls .badSource := by
  rw [State.accept, if_neg (by rw [service]; decide), if_neg (Nat.not_lt.2 short), if_neg data,
    if_pos (by rw [Bool.eq_false_iff.2 foreign]; rfl)]

variable (own : s.isIdentity m.header.sa = true)
include own

theorem State.accept_of_identity :
    s.accept m =
      if s.stationFull m.cls m.header.declared then s.refuse m.tag m.cls .queueFull else s.enqueue m := by
  rw [State.accept, if_neg (by rw [service]; decide), if_neg (Nat.not_lt.2 short), if_neg data,
    if_neg (by rw [own]; decide)]

theorem State.accept_of_full (full : s.stationFull m.cls m.header.declared = true) :
    s.accept m = s.refuse m.tag m.cls .queueFull := by
  rw [State.accept_of_identity service short data own, if_pos full]

theorem State.accept_of_room (room : ¬ s.stationFull m.cls m.header.declared = true) : s.accept m = s.enqueue m := by
  rw [State.accept_of_identity service short data own, if_neg room]

end

/-! ### What the checks' outcomes leave (R68, R73, R119, R120, R135) -/

theorem State.offerLocal_of_room (room : s.requests.length < 4) (m : StationSubmission) :
    s.offerLocal m = { s with requests := s.requests ++ [⟨.station m.tag, m.info, true⟩] } := if_pos room

theorem State.offerLocal_of_full (full : 4 ≤ s.requests.length) (m : StationSubmission) :
    s.offerLocal m = (s.count .mgmtDropped).refuse m.tag m.cls .queueFull := if_neg (Nat.not_lt.2 full)

theorem State.classQueue_eq (s : State) (cls : StationClass) :
    s.classQueue cls = if cls = .urgent then s.urgent else s.normal := by cases cls <;> rfl

/-- Check 5 of R118: a place in the class queue, and the frame's octets free in the store. -/
theorem State.stationRoom_iff (s : State) (cls : StationClass) (declared : Nat) :
    ¬ s.stationFull cls declared = true ↔
      (if cls = .urgent then s.urgent else s.normal).length < 8 ∧ 8 + declared ≤ 3072 - s.outboundReserved := by
  have full : s.stationFull cls declared = true ↔
      8 ≤ (s.classQueue cls).length ∨ 3072 - s.outboundReserved < 8 + declared := decide_eq_true_iff
  rw [full, State.classQueue_eq, not_or, Nat.not_le, Nat.not_lt]

theorem State.enqueue_of_urgent (urgent : m.cls = .urgent) :
    s.enqueue m = { s with urgent := s.urgent ++ [m.frame] } := by
  rw [State.enqueue, urgent]

theorem State.enqueue_of_normal (normal : m.cls = .normal) :
    s.enqueue m =
      { s with normal := s.normal ++ [m.frame], fairness := if s.normal = [] then 0 else s.fairness } := by
  rw [State.enqueue, normal]

end

/-- Settles O25: the flag finds the frame GOOD, and the checks of R118 decide in their order. -/
theorem stationFrameAcceptance : Obligations.StationFrameAcceptance := by
  intro f info lo hi s running frame whole long check fcs port tag cls h s1 frameIn queue room becomes
  let m : StationSubmission := submissionOf f info
  have good : f.judge 1 false = .good :=
    RxFrame.judge_eq_good_iff.2 ⟨rfl, whole, long, RxFrame.fcsGood_of_check check fcs⟩
  have accepts : ∀ {t : State}, s1.accept m = t → becomes t := fun {t} outcome => by
    show exec .stationFrameGood s = .next t.settle
    rw [exec_stationFrameGood running, State.stationGood_of_frame frame good, ← outcome]
  have identity : s1.isIdentity m.header.sa = true ↔ some h.sa ∈ s.identity.toList := s1.isIdentity_iff _
  have roomIff : ¬ s1.stationFull m.cls m.header.declared = true ↔ room := s1.stationRoom_iff _ _
  refine ⟨fun p l kept => ?header, fun repeater => accepts (State.accept_of_repeater repeater),
    fun service long => accepts (State.accept_of_long service long),
    fun service short da kind => ⟨fun place => accepts ?request, fun full => accepts ?requestFull⟩,
    fun service short data => ⟨fun foreign => accepts ?foreign, fun own full => accepts ?full,
      fun own place urgent => accepts ?urgent, fun own place normal => accepts ?normal⟩⟩
  case header =>
    show Header.ofOctets 1 f.head = _
    rw [kept]
    rfl
  case request =>
    have offered := State.accept_of_local (s := s1) (m := m) service short ⟨da, kind⟩
    exact offered.trans (State.offerLocal_of_room (s := s1) place m)
  case requestFull =>
    have offered := State.accept_of_local (s := s1) (m := m) service short ⟨da, kind⟩
    exact offered.trans (State.offerLocal_of_full (s := s1) full m)
  case foreign => exact State.accept_of_foreign (s := s1) (m := m) service short data (mt identity.1 foreign)
  case full =>
    exact State.accept_of_full (s := s1) (m := m) service short data (identity.2 own)
      (Decidable.not_not.1 (mt roomIff.1 full))
  case urgent =>
    have accepted := State.accept_of_room (s := s1) (m := m) service short data (identity.2 own) (roomIff.2 place)
    exact accepted.trans (State.enqueue_of_urgent urgent)
  case normal =>
    have accepted := State.accept_of_room (s := s1) (m := m) service short data (identity.2 own) (roomIff.2 place)
    exact accepted.trans (State.enqueue_of_normal normal)

end Sys2Proof.Machine
end

section
/-! A station frame that ends in error, and what the station line brings between frame ends (R3, R115, R116, R121). -/

namespace Sys2Proof.Machine

/-! ### A frame that ends in error (R115, R116, R121) -/

section
variable {s : State} {f : RxFrame} {info : List Byte}

theorem exec_stationFrameDiscard (running : s.resetAsserted = false) (how : StationEnd) :
    exec (.stationFrameDiscard how) s = .next (s.stationDiscard how).settle :=
  State.event_of_released (fun s => s.stationDiscard how) running

/-- The excess octet leaves the receiver hunting, the zero run counted on (R115). -/
theorem State.stationExcess_eq (s : State) (v : Byte) (rest : List Bool) :
    s.stationExcess v rest =
      { s with srx := ⟨.hunt, 0, zerosAfter s.srx.zeroRun (s.srx.octetLine v rest), []⟩ }.discard.breakInHunt := rfl

variable (frame : s.srx.state = .frame f info)
include frame

theorem State.stationDiscard_of_flag (tail : List Bool) :
    s.stationDiscard (.flag tail) =
      if f.judge 1 (decide (tail ≠ [])) = .good then s else { s with srx := ⟨.fill, 0, 1, []⟩ }.discard := by
  rw [State.stationDiscard, frame]
  rfl

theorem State.stationDiscard_of_excess (v : Byte) (rest : List Bool) :
    s.stationDiscard (.excess v rest) = if f.atExcess 1 then s.stationExcess v rest else s := by
  rw [State.stationDiscard, frame]

theorem State.stationDiscard_of_abort :
    s.stationDiscard .abort = { s with srx := ⟨.hunt, 7, 0, []⟩ }.discard := by
  rw [State.stationDiscard, frame]
  rfl

end

/-- Settles O26, by the way the frame ends. -/
theorem stationFrameDiscarded : Obligations.StationFrameDiscarded := by
  intro f info s running frame becomes
  have ends : ∀ {how t}, s.stationDiscard how = t → becomes how t := fun {how t} outcome => by
    show exec (.stationFrameDiscard how) s = .next t.settle
    rw [exec_stationFrameDiscard running, outcome]
  have flag := State.stationDiscard_of_flag frame
  have excess := State.stationDiscard_of_excess frame
  refine ⟨fun tail => ⟨fun bad => ends ?bad, fun none whole long fcs => ends ?good⟩,
    fun v rest => ⟨fun header full => ends ?excess, fun before => ends ?before⟩,
    ends (State.stationDiscard_of_abort frame)⟩
  case bad =>
    rw [flag, if_neg fun good => ?_]
    obtain ⟨even, whole, long, fcs⟩ := RxFrame.judge_eq_good_iff.1 good
    have even : tail = [] := Decidable.not_not.1 (of_decide_eq_false even)
    rcases bad with ragged | runt | length | badFcs
    · exact ragged even
    · omega
    · exact Nat.not_le.2 length long
    · rw [badFcs] at fcs
      cases fcs
  case good =>
    have even : decide (tail ≠ []) = false := decide_eq_false (not_not_intro none)
    rw [flag, if_pos (RxFrame.judge_eq_good_iff.2 ⟨even, whole, long, fcs⟩)]
  case excess => rw [excess, if_pos (f.atExcess_iff.2 ⟨header, full⟩), s.stationExcess_eq, StationRx.octetLine]
  case before =>
    rw [excess, if_neg fun atExcess => ?_]
    obtain ⟨header, full⟩ := f.atExcess_iff.1 atExcess
    exact before.elim (Nat.not_lt.2 header) (· full)

/-! ### Flags and aborts outside a frame (R115) -/

section
variable {s : State}

theorem exec_stationFlag (running : s.resetAsserted = false) (tail : List Bool) :
    exec (.stationFlag tail) s = .next s.stationFlag := State.running_of_released State.stationFlag running

theorem exec_stationAbort (running : s.resetAsserted = false) (idle : Bool) :
    exec (.stationAbort idle) s = .next (s.stationAbort idle) :=
  State.running_of_released (fun s => s.stationAbort idle) running

theorem State.stationFlag_outside (active : s.port = .active) (outside : s.srx.state = .hunt ∨ s.srx.state = .fill) :
    s.stationFlag = { s with srx := ⟨.fill, 0, 1, []⟩ } := by
  rw [State.stationFlag, active]
  rcases outside with state | state
  · rw [state]
    rfl
  · rw [state]
    rfl

theorem State.stationAbort_outside (outside : s.srx.state = .hunt ∨ s.srx.state = .fill) (idle : Bool) :
    s.stationAbort idle = { s with srx := ⟨.hunt, if idle then 15 else 7, 0, []⟩ } := by
  rw [State.stationAbort]
  rcases outside with state | state
  · rw [state]
    rfl
  · rw [state]
    rfl

theorem State.stationAbort_of_frame {f : RxFrame} {info : List Byte} (frame : s.srx.state = .frame f info)
    (idle : Bool) : s.stationAbort idle = s := by
  rw [State.stationAbort, frame]

/-! ### Octets by the framing state (R3, R115, R116) -/

theorem exec_stationOctet (running : s.resetAsserted = false) (v : Byte) (rest : List Bool) :
    exec (.stationOctet v rest) s = .next (s.stationOctet v rest).settle :=
  State.event_of_released (fun s => s.stationOctet v rest) running

/-- An octet that is not excess, outside HUNT. -/
theorem State.stationOctet_of_taken (other : s.srx.state ≠ .hunt) (short : s.srx.atExcess = false) (v : Byte)
    (rest : List Bool) : s.stationOctet v rest = { s with srx := (s.srx.passOctet v rest).take v } := by
  have none : ¬ s.breakWithin (s.srx.octetLine v rest) = true := fun within =>
    other ((s.breakWithin_iff _).1 within).2.1
  rw [State.stationOctet, if_neg (by rw [short]; decide)]
  exact if_neg none

/-- An octet in HUNT is passed over; the zero run at its bits may begin a break (R3, R116). -/
theorem State.stationOctet_of_hunt (hunt : s.srx.state = .hunt) (v : Byte) (rest : List Bool) :
    let hunting : State := { s with srx := ⟨.hunt, 0, zerosAfter s.srx.zeroRun (s.srx.octetLine v rest), []⟩ }
    s.stationOctet v rest =
      if s.breakWithin (s.srx.octetLine v rest) = true then hunting.breakEffects else hunting := by
  have passed : (s.srx.passOctet v rest).take v =
      ⟨.hunt, 0, zerosAfter s.srx.zeroRun (s.srx.octetLine v rest), []⟩ := by
    simp [StationRx.take, StationRx.passOctet, hunt]
  rw [State.stationOctet, if_neg (by rw [StationRx.atExcess_outside (.inl hunt)]; decide), passed]

theorem State.stationOctet_of_fill (fill : s.srx.state = .fill) (v : Byte) (rest : List Bool) :
    s.stationOctet v rest =
      { s with
        srx := ⟨.frame (RxFrame.empty.push 1 v) [], 0, zerosAfter s.srx.zeroRun (s.srx.octetLine v rest), rest⟩ } := by
  rw [State.stationOctet_of_taken (by rw [fill]; exact StationRxState.noConfusion)
    (StationRx.atExcess_outside (.inr fill))]
  simp [StationRx.take, StationRx.passOctet, fill]

section
variable {f : RxFrame} {info : List Byte} (frame : s.srx.state = .frame f info) (v : Byte) (rest : List Bool)
include frame

theorem State.stationOctet_of_excess (header : 9 ≤ f.count) (full : f.count = 9 + f.length + 2) :
    s.stationOctet v rest = s.stationExcess v rest := by
  rw [State.stationOctet, StationRx.atExcess_of_frame frame]
  exact if_pos (f.atExcess_iff.2 ⟨header, full⟩)

theorem State.stationOctet_of_frame (short : ¬ (9 ≤ f.count ∧ f.count = 9 + f.length + 2)) :
    s.stationOctet v rest =
      { s with
        srx := ⟨.frame (f.push 1 v) (keepInfo (f.push 1 v) info v), 0,
          zerosAfter s.srx.zeroRun (s.srx.octetLine v rest), rest⟩ } := by
  rw [State.stationOctet_of_taken (by rw [frame]; exact StationRxState.noConfusion)
    (by rw [StationRx.atExcess_of_frame frame]; exact Bool.eq_false_iff.2 (mt f.atExcess_iff.1 short))]
  simp [StationRx.take, StationRx.passOctet, frame]

end

end

/-! ### The info octets kept (R115) -/

theorem RxFrame.tookInfo_iff {lead : Nat} (f : RxFrame) :
    f.tookInfo lead = true ↔ lead + 8 < f.count ∧ f.count ≤ lead + 8 + f.length := decide_eq_true_iff

theorem keepInfo_of_info {f : RxFrame} (took : f.tookInfo 1 = true) (info : List Byte) (v : Byte) :
    keepInfo f info v = if info.length < 512 then info ++ [v] else info := by
  simp [keepInfo, took]

theorem keepInfo_of_other {f : RxFrame} (other : ¬ f.tookInfo 1 = true) (info : List Byte) (v : Byte) :
    keepInfo f info v = info := by
  simp [keepInfo, other]

/-- Settles O27: by the framing state, and in FRAME by the frame's count. -/
theorem stationLineEvents : Obligations.StationLineEvents := by
  intro s running
  refine ⟨fun tail active outside => ?flag, fun idle outside => ?abort, fun idle f info frame => ?abortInFrame,
    fun _ _ => rfl, ?octet⟩
  case flag => rw [exec_stationFlag running, State.stationFlag_outside active outside]
  case abort => rw [exec_stationAbort running, State.stationAbort_outside outside]
  case abortInFrame => rw [exec_stationAbort running, State.stationAbort_of_frame frame]
  intro v rest bits zeros reaches becomes hunting framing
  have brings : ∀ {t : State}, s.stationOctet v rest = t → becomes t := fun {t} outcome => by
    show exec (.stationOctet v rest) s = .next t.settle
    rw [exec_stationOctet running, outcome]
  have within : s.breakWithin (s.srx.octetLine v rest) = true ↔ s.port = .active ∧ s.srx.state = .hunt ∧ reaches :=
    s.breakWithin_iff bits
  refine ⟨fun hunt => ⟨fun active long => brings ?breaks, fun no => brings ?hunts⟩,
    fun fill => brings (State.stationOctet_of_fill fill v rest), fun f info frame => ?frame⟩
  case breaks => exact (State.stationOctet_of_hunt hunt v rest).trans (if_pos (within.2 ⟨active, hunt, long⟩))
  case hunts =>
    refine (State.stationOctet_of_hunt hunt v rest).trans (if_neg fun yes => ?_)
    obtain ⟨active, -, long⟩ := within.1 yes
    rcases no with inBreak | short
    · rw [active] at inBreak
      cases inBreak
    · exact short long
  have taken : ¬ (9 ≤ f.count ∧ f.count = 9 + f.length + 2) → ∀ {g : RxFrame} {kept : List Byte}, f.push 1 v = g →
      keepInfo g info v = kept → becomes (framing g kept) := by
    rintro short g kept rfl rfl
    exact brings (State.stationOctet_of_frame frame v rest short)
  refine ⟨fun header => ?header, fun last => ?last, fun after before => ?info, fun after beyond few => ?check,
    fun header full => brings (State.stationOctet_of_excess frame v rest header full)⟩
  case header =>
    refine taken (by omega) (RxFrame.push_of_header (by omega) v) (keepInfo_of_other ?_ info v)
    rw [RxFrame.tookInfo_iff]
    dsimp only
    omega
  case last =>
    refine taken (by omega) ((RxFrame.push_of_last (by omega) v).trans ?_) (keepInfo_of_other ?_ info v)
    · rw [last]
      rfl
    · rw [RxFrame.tookInfo_iff]
      dsimp only
      omega
  case info =>
    have inside : f.count < 9 + f.length := before
    refine taken (by omega) (RxFrame.push_of_info after inside v) (keepInfo_of_info ?_ info v)
    rw [RxFrame.tookInfo_iff]
    exact ⟨Nat.lt_succ_of_le after, inside⟩
  case check =>
    have beyond : 9 + f.length ≤ f.count := beyond
    have few : f.count < 9 + f.length + 2 := few
    refine taken (by omega) (RxFrame.push_of_check beyond v) (keepInfo_of_other ?_ info v)
    rw [RxFrame.tookInfo_iff]
    exact fun ⟨_, inside⟩ => Nat.not_le.2 (Nat.lt_succ_of_le beyond) inside

end Sys2Proof.Machine
end

section
/-! What an event ends with: each ready head carried out in turn, by whichever command the event was given (R136, R140,
R182). -/

namespace Sys2Proof.Machine

/-- A head is ready when it is complete and its reply path has a place (R136). -/
theorem State.readyHead_iff (s : State) (r : Request) :
    s.readyHead = some r ↔ ∃ rest, s.requests = r :: rest ∧ r.complete = true ∧ s.replyPlace r = true := by
  refine ⟨State.readyHead_some, ?_⟩
  rintro ⟨rest, queue, complete, place⟩
  rw [State.readyHead, queue]
  exact if_pos (by rw [complete, place]; rfl)

theorem State.replyPlace_iff (s : State) (r : Request) :
    s.replyPlace r = true ↔
      ((∃ sa, r.source = .loop sa) → s.own.length < 6) ∧ ((∃ tag, r.source = .station tag) → s.replies.length < 2) := by
  unfold State.replyPlace
  split
  · rename_i sa loop
    simp [loop, s.ownPlace_iff]
  · rename_i tag station
    simp [station]

/-- The row of a command is the end of the event, where the engine would carry out that command too (R136). -/
theorem exec_row {s : State} (running : s.resetAsserted = false) (c : Option Command) :
    s.event (fun s => s.serve c (State.runOf c)) = .next s.settle := by
  rw [State.event_of_released _ running, s.settle_serve]

/-- With no head ready, and no notice to send or no way to send it, an event ends where it stands. -/
theorem State.settle_of_nothing_left {s : State} (waits : s.readyHead = none)
    (quiet : s.params.noticeDest = ⟨0, 0⟩ ∨ 6 ≤ s.own.length ∨
      ∀ k, (s.slot k).isPending = false ∧ (s.slot k).resendWaits = false) : s.settle = s := by
  rw [State.settle_of_none waits, State.placeNotices]
  rcases quiet with unset | full | idle
  · rw [State.sendFirst_of_none (State.sendable_eq_none (.inl unset)), State.resendWaiting_of_no_place (.inl unset)]
  · have noPlace : ¬ s.ownPlace = true := mt s.ownPlace_iff.1 (Nat.not_lt.2 full)
    rw [State.sendFirst_of_full noPlace, State.resendWaiting_of_no_place (.inr full)]
  · rw [State.sendFirst_of_none (State.sendable_eq_none (.inr (.inl fun k => (idle k).1))),
      State.resendWaiting_of_none fun k => (idle k).2]

/-- Settles O8: each row is the end of its event, and that end is the engine's chain, then the notice unit's turn. -/
theorem eventEndsCarryingOut : Obligations.EventEndsCarryingOut := by
  intro s running
  refine ⟨fun r => ?ready, fun r ready => ⟨State.settle_of_some ready, fun row mem _ => ?row⟩,
    State.settle_of_nothing_left⟩
  case ready => rw [s.readyHead_iff, s.replyPlace_iff]
  case row =>
    have rowOf := fun c => exec_row running c
    simp only [List.mem_cons, List.not_mem_nil, or_false] at mem
    rcases mem with rfl | rfl | rfl | rfl | rfl | rfl | rfl | rfl | rfl | rfl | rfl | rfl | rfl | rfl | rfl | rfl
    all_goals exact rowOf _

end Sys2Proof.Machine
end

section
/-! The mode and the lists over every command, and what REPEATER mode leaves empty and unset (R22, R23, R43, R79, R113,
R146, R156, R175, R189). -/

namespace Sys2Proof.Machine

/-! ### The lists (R22, R23, R146, R147) -/

theorem get_set {α : Type} {n : Nat} (v : Vector α n) (i j : Fin n) (x : α) :
    (v.set i x).get j = if i = j then x else v.get j := by
  have get : ∀ (w : Vector α n) (k : Fin n), w.get k = w[k.val] := fun _ _ => rfl
  rw [get, get, Vector.getElem_set]
  simp only [Fin.ext_iff]

/-- All of the state that the soundness of the lists reads. -/
def State.listsPart (s : State) := (s.mode, s.strapped, s.identity, s.managers)

theorem ListsSound.congr {s t : State} (h : ListsSound s) (same : t.listsPart = s.listsPart) : ListsSound t := by
  simp only [State.listsPart, Prod.mk.injEq] at same
  obtain ⟨mode, strapped, identity, managers⟩ := same
  unfold ListsSound IdentityFixed
  rwa [mode, strapped, identity, managers]

theorem State.fixedPart_mode {s t : State} (h : t.fixedPart = s.fixedPart) :
    t.mode = s.mode ∧ t.strapped = s.strapped :=
  ⟨congrArg (fun x => x.2.1) h, congrArg (fun x => x.1) h⟩

/-- An entry's new value that no other entry holds leaves the list sound (R147 check 5a). -/
theorem ListSound.set {l : Vector (Option Address) 4} (h : ListSound l) {i : Fin 4} {new : Option Address}
    (free : ¬ heldElsewhere l i new = true) : ListSound (l.set i new) := by
  have apart : ∀ j, j ≠ i → new ≠ none → l.get j ≠ new := fun j other address same =>
    free ((heldElsewhere_iff _ _ _).2 ⟨address, j, other, same⟩)
  intro a b other address
  rw [get_set] at address ⊢
  rw [get_set]
  split at address
  · rename_i here
    rw [if_pos here, if_neg (here ▸ other)]
    exact (apart b (here ▸ other.symm) address).symm
  · rename_i notA
    rw [if_neg notA]
    split
    · rename_i here
      exact fun same => apart a (here ▸ other) (same ▸ address) same
    · exact h a b other address

theorem State.writeList_listsSound {s : State} (service : s.mode = .service) (h : ListsSound s) (l : ListName)
    (i : Fin 4) (new : Option Address) : ListsSound (s.writeList l i new).1 := by
  obtain ⟨⟨mode, strapped, repeater⟩, identity, managers⟩ := h
  have same : ListsSound s := ⟨⟨mode, strapped, repeater⟩, identity, managers⟩
  unfold State.writeList
  split
  · split
    · exact same
    split
    · exact same
    split
    · exact same
    · rename_i other free _
      refine ⟨⟨mode, fun _ => ?_, fun rep => ?_⟩, identity.set free, managers⟩
      · exact (get_set _ _ _ _).trans ((if_neg other).trans (strapped service))
      · cases service.symm.trans rep
  · split
    · exact same
    · rename_i free
      exact ⟨⟨mode, strapped, repeater⟩, identity, managers.set free⟩

theorem State.runListWrite_listsSound {s : State} (service : s.mode = .service) (h : ListsSound s) (r : Request) :
    ListsSound (State.runListWrite r s).1 := by
  unfold State.runListWrite State.ifAuthorized
  split
  · split
    · split
      · exact State.writeList_listsSound service h _ _ _
      · exact h
    · exact h
  · exact h

/-- A request carried out in SERVICE mode: LIST WRITE checks what it writes, and no other command writes a list. -/
theorem State.carryOut_listsSound {s : State} {r : Request} (ready : s.readyHead = some r)
    (h : s.mode = .service ∧ ListsSound s) : (s.carryOut r).mode = .service ∧ ListsSound (s.carryOut r) := by
  obtain ⟨service, sound⟩ := h
  obtain ⟨-, -, runs⟩ := State.carryOut_runs ready
  have changes := runs.changesAsked (asked := fun k => r.command = some k) fun _ command => command
  obtain ⟨mode, strapped⟩ := State.fixedPart_mode changes.fixed
  refine ⟨mode.trans service, ?_⟩
  by_cases write : r.command = some .listWrite
  · rw [State.carryOut, State.carry, write]
    obtain ⟨_, _, e⟩ := State.reply_frame (State.runListWrite r s).1 r (State.runListWrite r s).2
    exact (State.runListWrite_listsSound service sound r).congr ((congrArg State.listsPart e).trans rfl)
  · obtain ⟨identity, managers⟩ := changes.lists write
    exact sound.congr (by simp only [State.listsPart, mode, strapped, identity, managers])

theorem State.settle_listsSound {s : State} (service : s.mode = .service) (h : ListsSound s) : ListsSound s.settle := by
  have engine : s.engine.mode = .service ∧ ListsSound s.engine :=
    State.engine_induction (P := fun t => t.mode = .service ∧ ListsSound t) ⟨service, h⟩
      fun _ _ => State.carryOut_listsSound
  obtain ⟨_, _, _, e⟩ := s.engine.placeNotices_frame
  exact engine.2.congr ((congrArg State.listsPart e).trans rfl)

/-- No block's effect moves the mode, the straps or the lists. -/
theorem blockEffect_listsPart (c : Instr) (s : State) : (blockEffect c s).listsPart = s.listsPart := by
  obtain ⟨s', prepared, k⟩ := blockEffect_keeps c s
  obtain ⟨strapped, mode, -⟩ := prepared.fixed
  obtain ⟨-, identity, managers, -⟩ := prepared.settings
  obtain ⟨mode', strapped'⟩ := State.fixedPart_mode k.fixed
  simp only [State.listsPart, mode', strapped', k.identity, k.managers, mode, strapped, identity, managers]

/-! ### What REPEATER mode leaves unset (R79, R113, R156, R175, R189) -/

/-- The counters of what a part in REPEATER mode never does. -/
def serviceCounters : List Counter := [.inserted, .delivered, .deliveryRefused, .mgmtDropped]

/-- A part in REPEATER mode: no frame of its own or of the station, nothing delivered, no request, the configuration as
at power-on, no notice sent. -/
structure State.RepeaterUnset (s : State) : Prop where
  mode : s.mode = .repeater
  own : s.own = []
  urgent : s.urgent = []
  normal : s.normal = []
  log : s.log = []
  delivery : s.delivery = []
  replies : s.replies = []
  requests : s.requests = []
  active : s.active = []
  session : s.session = none
  epoch : s.epoch = 0
  params : s.params = .powerOn
  managers : ∀ i : Fin 4, s.managers.get i = none
  slots : ∀ k : Fin 8, (s.slots.get k).isOutstanding = false
  counters : ∀ c ∈ serviceCounters, s.counter c = 0
  ltx : s.ltx.isInserting = false
  ptx : s.ptx ≠ .delivery

theorem repeaterQuiet_iff (s : State) : RepeaterQuiet s ↔ (s.mode = .repeater → s.RepeaterUnset) := by
  refine imp_congr_right fun mode => ⟨?_, fun u => ?_⟩
  · rintro ⟨own, urgent, normal, log, delivery, replies, requests, active, session, epoch, params, managers, slots,
      inserted, delivered, refused, dropped, ltx, ptx⟩
    have counters : ∀ c ∈ serviceCounters, s.counter c = 0 := by
      simp only [serviceCounters, List.forall_mem_cons]
      exact ⟨inserted, delivered, refused, dropped, List.forall_mem_nil _⟩
    exact ⟨mode, own, urgent, normal, log, delivery, replies, requests, active, session, epoch, params, managers, slots,
      counters, ltx, ptx⟩
  · have counter := fun c hc => u.counters c hc
    exact ⟨u.own, u.urgent, u.normal, u.log, u.delivery, u.replies, u.requests, u.active, u.session, u.epoch, u.params,
      u.managers, u.slots, counter _ (by decide), counter _ (by decide), counter _ (by decide), counter _ (by decide),
      u.ltx, u.ptx⟩

/-- With no request and NOTICE_DEST unset nothing is left to do at the end of an event (R156, R189). -/
theorem State.RepeaterUnset.settle {s : State} (u : s.RepeaterUnset) : s.settle = s :=
  State.settle_of_nothing_left (by rw [State.readyHead, u.requests]) (.inl (by rw [u.params]; rfl))

/-! ### Operations of empty blocks -/

theorem State.endDelivery_of_empty {s : State} (empty : s.delivery = []) (good : Bool) : s.endDelivery good = s := by
  rw [State.endDelivery, State.arrivingDelivery, empty]
  rfl

theorem State.endReturning_of_empty {s : State} (empty : s.log = []) (good : Bool) : s.endReturning good = s := by
  rw [State.endReturning, empty]
  rfl

theorem State.insert_of_empty {s : State} (own : s.own = []) (urgent : s.urgent = []) (normal : s.normal = []) :
    s.insert = s := by
  have none_tried : s.tryOwn = none ∧ s.tryUrgent = none ∧ s.tryNormal = none := by
    rw [State.tryOwn, State.tryUrgent, State.tryNormal, own, urgent, normal]
    exact ⟨rfl, rfl, rfl⟩
  obtain ⟨noOwn, noUrgent, noNormal⟩ := none_tried
  rw [State.insert, noOwn, noUrgent, noNormal]
  exact ite_self _

section
variable {s : State} (u : s.RepeaterUnset)
include u

/-! ### Counts, raises and reports -/

theorem State.RepeaterUnset.ite {t : State} (h : t.RepeaterUnset) {p : Prop} [Decidable p] :
    (if p then t else s).RepeaterUnset := by
  split
  · exact h
  · exact u

theorem State.RepeaterUnset.countN {c : Counter} (other : c ∉ serviceCounters) (n : Nat) :
    (s.countN c n).RepeaterUnset :=
  { u with
    counters := fun k hk => by
      rw [State.counter_countN, if_neg fun same : k = c => other (same ▸ hk), u.counters k hk]
      rfl }

theorem State.RepeaterUnset.count {c : Counter} (other : c ∉ serviceCounters) : (s.count c).RepeaterUnset :=
  u.countN other 1

/-- A raise sends nothing (R178). -/
theorem State.RepeaterUnset.raise (k : NoticeKind) (d : Detail) : (s.raise k d).RepeaterUnset :=
  { u with
    slots := fun j => by
      have before : (s.slot k).isOutstanding = false := u.slots (noticeCode k)
      have after : ((s.slot k).raise d).isOutstanding = false := by
        cases hk : s.slot k with
        | idle => rfl
        | pending occ old => rfl
        | outstanding n => rw [hk] at before; cases before
      rw [State.raise_slots, get_set]
      split
      · exact after
      · exact u.slots j }

theorem State.RepeaterUnset.causeStatus : s.causeStatus.RepeaterUnset := by
  obtain ⟨_, _, e⟩ := s.causeStatus_frame
  rw [e]
  exact { u with }

theorem State.RepeaterUnset.discard : s.discard.RepeaterUnset :=
  have counted : ({ s.count .portDiscarded with discarded := saturate (s.discarded + 1) } : State).RepeaterUnset :=
    { u.count (by decide) with }
  counted.causeStatus

theorem State.RepeaterUnset.refuse (tag : Tag) (cls : StationClass) (reason : Reason) :
    (s.refuse tag cls reason).RepeaterUnset := by
  unfold State.refuse
  split
  · exact { u with }
  · exact u.discard

theorem State.RepeaterUnset.expireLog : s.expireLog.RepeaterUnset :=
  { u.countN (by decide) _ with
    log := by
      show (splitExpired s.timer s.params.returnTimeout s.log).2 = []
      rw [u.log]
      rfl }

/-! ### Copies in transit (R46, R50 to R58) -/

theorem State.RepeaterUnset.octetTimes (n : Nat) : (s.octetTimes n).RepeaterUnset := by
  obtain ⟨_, e⟩ := s.octetTimes_frame n
  rw [e]
  exact { u with }

theorem State.RepeaterUnset.underrun : s.underrun.RepeaterUnset := by
  unfold State.underrun
  split
  · exact u
  · rename_i e es _
    split
    · exact { (u.count (c := .underrun) (by decide)).raise .underrun (.address e.header.sa) with ltx := rfl }
    · exact u

theorem State.RepeaterUnset.completeForward : s.completeForward.RepeaterUnset := by
  unfold State.completeForward
  split
  · exact u
  · refine u.ite ?_
    exact { u.count (c := .forwarded) (by decide) with ltx := rfl }

theorem State.RepeaterUnset.completeAbort : s.completeAbort.RepeaterUnset := by
  refine u.ite ?_
  exact { u with ltx := rfl }

/-- Nothing is being inserted (R79). -/
theorem State.RepeaterUnset.endInsertion : s.endInsertion.RepeaterUnset := by
  unfold State.endInsertion
  split
  · rename_i f inserting
    have not_inserting := u.ltx
    rw [inserting] at not_inserting
    cases not_inserting
  · exact u

theorem State.RepeaterUnset.endTransit (good : Bool) : (s.endTransit good).RepeaterUnset := by
  unfold State.endTransit
  split
  · exact u
  · split
    · exact { u with }
    · exact { u with }
    · exact { u with }
    · exact { u with ltx := rfl }

theorem State.RepeaterUnset.reserveTransit (h : Header) (marks : Option Mark) :
    (s.reserveTransit h marks).RepeaterUnset := by
  unfold State.reserveTransit
  split
  · exact { u with }
  · exact (u.count (by decide)).raise _ _

/-- With no frame of the part's own or the station's the arbiter starts copies alone (R79). -/
theorem State.RepeaterUnset.arbitrate : s.arbitrate.RepeaterUnset := by
  unfold State.arbitrate
  refine u.ite ?_
  split
  · refine u.ite ?_
    exact { u with ltx := rfl }
  · rwa [State.insert_of_empty u.own u.urgent u.normal]

/-! ### The loop receive line -/

theorem State.RepeaterUnset.received (rx : LoopRx) (sup : Supervisor) :
    ({ s with rx := rx, sup := sup } : State).RepeaterUnset := { u with }

theorem State.RepeaterUnset.infoOctet (v : Byte) : (s.infoOctet v).RepeaterUnset := by
  rw [State.infoOctet_eq]
  refine { u with delivery := ?_, requests := ?_ }
  · dsimp only
    rw [u.delivery]
    exact ite_self _
  · dsimp only
    rw [u.requests]
    exact ite_self _

theorem State.RepeaterUnset.endDelivery (good : Bool) : (s.endDelivery good).RepeaterUnset := by
  rwa [State.endDelivery_of_empty u.delivery]

theorem State.RepeaterUnset.endRequest (good : Bool) : (s.endRequest good).RepeaterUnset := by
  unfold State.endRequest
  rw [u.requests]
  split <;> exact { u with requests := rfl }

theorem State.RepeaterUnset.endReturning (good : Bool) : (s.endReturning good).RepeaterUnset := by
  rwa [State.endReturning_of_empty u.log]

theorem State.RepeaterUnset.endBlocks (good : Bool) : (s.endBlocks good).RepeaterUnset := by
  unfold State.endBlocks
  split
  · exact u
  · rename_i r _
    have transit := u.ite (p := r.forward = true) (u.endTransit good)
    have delivery := transit.ite (p := r.keepsCopy = true) (transit.endDelivery good)
    have request := delivery.ite (p := r.keepsRequest = true) (delivery.endRequest good)
    exact request.ite (request.endReturning good)

theorem State.RepeaterUnset.frameEnd (c : EndCond) : (s.frameEnd c).RepeaterUnset := by
  have ended := u.endBlocks c.isGood
  unfold State.frameEnd
  dsimp only
  split
  · exact { ended with }
  · exact { ended.count (c := .rxBad) (by decide) with }

theorem State.RepeaterUnset.superviseFlag (c : Option EndCond) : (s.superviseFlag c).RepeaterUnset := by
  unfold State.superviseFlag
  dsimp only
  split
  · exact (u.received s.rx _).raise _ _
  · exact u.received s.rx _

theorem State.RepeaterUnset.loopFlag (tail : List Bool) : (s.loopFlag tail).RepeaterUnset := by
  unfold State.loopFlag
  dsimp only
  refine State.RepeaterUnset.superviseFlag ?_ _
  split
  · exact (u.frameEnd _).received _ _
  · exact u.received _ _

theorem State.RepeaterUnset.abortFrame (reason : AbortReason) : (s.abortFrame reason).RepeaterUnset := by
  unfold State.abortFrame
  split
  · exact u.frameEnd _
  · exact u

theorem State.RepeaterUnset.loopOnes (run : Nat) : (s.loopOnes run).RepeaterUnset :=
  (u.abortFrame .abort).received _ _

theorem State.RepeaterUnset.silence : s.silence.RepeaterUnset :=
  u.ite (((u.raise _ _).abortFrame .silence).received _ _)

/-- The verdicts of REPEATER mode (R43). -/
theorem State.RepeaterUnset.find (h : Header) :
    s.find h = ⟨.badHeader, none⟩ ∨ s.find h = ⟨.orphan, none⟩ ∨ s.find h = ⟨.pass, none⟩ := by
  unfold State.find
  rw [u.mode]
  dsimp only
  split
  · exact .inl rfl
  split
  · exact .inr (.inl rfl)
  · exact .inr (.inr rfl)

theorem State.RepeaterUnset.headerComplete (h : Header) : (s.headerComplete h).RepeaterUnset := by
  unfold State.headerComplete
  rcases u.find h with bad | orphan | pass
  · rw [bad]
    exact { u.count (c := .badHeader) (by decide) with }
  · rw [orphan]
    exact { (u.count (c := .orphaned) (by decide)).raise .orphan (.address h.sa) with }
  · rw [pass]
    exact { u.reserveTransit h none with }

theorem State.RepeaterUnset.loopOctet (v : Byte) (rest : List Bool) : (s.loopOctet v rest).RepeaterUnset := by
  have received := fun rx => u.received rx s.sup
  unfold State.loopOctet
  split
  · exact received _
  · exact received _
  · unfold State.frameOctet
    dsimp only
    split
    · exact ((received _).frameEnd _).received _ _
    split
    · exact (received _).headerComplete _
    split
    · exact (received _).infoOctet v
    · exact received _

/-! ### The station port -/

theorem State.RepeaterUnset.with_srx (x : StationRx) : ({ s with srx := x } : State).RepeaterUnset := { u with }

theorem State.RepeaterUnset.breakEffects : s.breakEffects.RepeaterUnset :=
  { u with
    urgent := rfl
    normal := rfl
    log := by
      show s.log.map LogEntry.silence = []
      rw [u.log]
      rfl
    delivery := rfl
    replies := rfl
    requests := by
      show s.requests.filter (fun r => r.isLoop) = []
      rw [u.requests]
      rfl
    session := by
      show sessionAfterBreak s.session = none
      rw [u.session]
      rfl
    ptx := by
      show s.ptx.abort ≠ .delivery
      cases s.ptx <;> exact PortTx.noConfusion }

theorem State.RepeaterUnset.startBreak (bits : List Bool) : (s.startBreak bits).RepeaterUnset :=
  u.ite (u.with_srx _).breakEffects

theorem State.RepeaterUnset.endBreak : s.endBreak.RepeaterUnset := by
  have active : ({ s with port := .active, srx := s.srx.flag } : State).RepeaterUnset := { u with }
  exact u.ite active.causeStatus

theorem State.RepeaterUnset.stationExcess (v : Byte) (rest : List Bool) : (s.stationExcess v rest).RepeaterUnset := by
  have discarded := (u.with_srx { s.srx.passOctet v rest with state := .hunt, collector := [] }).discard
  exact discarded.ite discarded.breakEffects

theorem State.RepeaterUnset.stationOctet (v : Byte) (rest : List Bool) : (s.stationOctet v rest).RepeaterUnset := by
  unfold State.stationOctet
  dsimp only
  split
  · exact u.stationExcess v rest
  · exact (u.with_srx _).ite (u.with_srx _).breakEffects

theorem State.RepeaterUnset.stationFlag : s.stationFlag.RepeaterUnset := by
  unfold State.stationFlag
  split
  · exact u.with_srx _
  · exact u.with_srx _
  · exact u

theorem State.RepeaterUnset.stationAbort (idle : Bool) : (s.stationAbort idle).RepeaterUnset := by
  unfold State.stationAbort
  split
  · exact u
  · exact u.with_srx _

theorem State.RepeaterUnset.stationDiscard (how : StationEnd) : (s.stationDiscard how).RepeaterUnset := by
  unfold State.stationDiscard
  split
  · split
    · split
      · exact u
      · exact (u.with_srx _).discard
    · exact u.ite (u.stationExcess _ _)
    · exact (u.with_srx _).discard
  · exact u

/-- Every station frame is refused NOT_IN_SERVICE (R113). -/
theorem State.RepeaterUnset.accept (m : StationSubmission) : (s.accept m).RepeaterUnset := by
  rw [State.accept, if_pos u.mode]
  exact u.refuse _ _ _

theorem State.RepeaterUnset.stationGood : s.stationGood.RepeaterUnset := by
  unfold State.stationGood
  split
  · exact u.ite ((u.with_srx _).accept _)
  · exact u

/-- The delivery store offers nothing (R113). -/
theorem State.RepeaterUnset.portChoice : s.portChoice.RepeaterUnset := by
  unfold State.portChoice
  refine u.ite ?_
  split
  · unfold State.beginRecord
    split <;> exact { u with ptx := PortTx.noConfusion }
  · exact { u with ptx := PortTx.noConfusion }
  · rename_i e _ _ offered
    rw [State.offeredDelivery, u.delivery] at offered
    cases offered
  · exact u

theorem State.RepeaterUnset.recordSent : s.recordSent.RepeaterUnset := by
  unfold State.recordSent
  split
  · exact { u with ptx := PortTx.noConfusion }
  · split <;> exact { u with ptx := PortTx.noConfusion }

theorem State.RepeaterUnset.reportSent : s.reportSent.RepeaterUnset := by
  unfold State.reportSent
  split
  · exact u.recordSent
  · exact { u with
      replies := by
        show s.replies.tail = []
        rw [u.replies]
        rfl
      ptx := PortTx.noConfusion }
  · rename_i delivery
    exact absurd delivery u.ptx
  · exact u

theorem State.RepeaterUnset.portAbortSent : s.portAbortSent.RepeaterUnset := by
  refine u.ite ?_
  exact { u with ptx := PortTx.noConfusion }

/-! ### Sessions and notices -/

theorem State.RepeaterUnset.expireSession : s.expireSession.RepeaterUnset := by
  unfold State.expireSession
  rw [u.session]
  exact u

/-- No notice is OUTSTANDING, so none has a deadline (R189). -/
theorem State.RepeaterUnset.retryDeadline (k : NoticeKind) : (s.retryDeadline k).RepeaterUnset := by
  unfold State.retryDeadline
  split
  · rename_i n outstanding
    have idle : (s.slot k).isOutstanding = false := u.slots (noticeCode k)
    rw [outstanding] at idle
    cases idle
  · exact u

/-! ### Every command -/

theorem State.RepeaterUnset.blockEffect (c : Instr) : (blockEffect c s).RepeaterUnset := by
  cases c with
  | loopFlag tail times => exact (u.octetTimes times).loopFlag tail
  | loopOctet v rest times => exact (u.octetTimes times).loopOctet v rest
  | loopAbort => exact u.loopOnes 7
  | lineIdle => exact u.loopOnes 15
  | lineSilenceDeadline => exact u.silence
  | arbiterChoice => exact u.arbitrate
  | underrun times => exact (u.octetTimes times).underrun
  | forwardComplete => exact u.completeForward
  | insertionEnd => exact u.endInsertion
  | abortComplete => exact u.completeAbort
  | returnTimeoutExpiry => exact u.expireLog
  | portBreak bits => exact u.startBreak bits
  | portBreakEnd => exact u.endBreak
  | stationFrameGood => exact u.stationGood
  | stationFrameDiscard how => exact u.stationDiscard how
  | portTxChoice => exact u.portChoice
  | portReportSent => exact u.reportSent
  | portTxAbortComplete => exact u.portAbortSent
  | sessionTimeoutExpiry => exact u.expireSession
  | noticeRetryDeadline k => exact u.retryDeadline k
  | stationFlag tail => exact u.stationFlag
  | stationOctet v rest => exact u.stationOctet v rest
  | stationAbort idle => exact u.stationAbort idle
  | _ => exact u

end

/-! ### The invariant -/

/-- What every step keeps of the mode and the lists. -/
def State.ModeSound (s : State) : Prop := ListsSound s ∧ (s.mode = .repeater → s.RepeaterUnset)

theorem State.ModeSound.of_service {s : State} (service : s.mode = .service) (lists : ListsSound s) : s.ModeSound :=
  ⟨lists, fun rep => by cases service.symm.trans rep⟩

theorem blockEffect_modeSound (c : Instr) {s : State} (h : s.ModeSound) : (blockEffect c s).ModeSound := by
  have same := blockEffect_listsPart c s
  have mode : (blockEffect c s).mode = s.mode := congrArg (fun x => x.1) same
  exact ⟨h.1.congr same, fun rep => (h.2 (mode ▸ rep)).blockEffect c⟩

theorem State.settle_modeSound {s : State} (h : s.ModeSound) : s.settle.ModeSound := by
  cases mode : s.mode with
  | service =>
    obtain ⟨_, -, changes⟩ := State.settle_changesAsked (s := s) (asked := fun _ => True) fun _ _ => trivial
    exact .of_service ((State.fixedPart_mode changes.fixed).1.trans mode) (State.settle_listsSound mode h.1)
  | repeater => rwa [(h.2 mode).settle]

theorem State.resendWaiting_modeSound {s : State} (h : s.ModeSound) : s.resendWaiting.ModeSound := by
  obtain ⟨_, _, e⟩ := s.resendWaiting_frame
  cases mode : s.mode with
  | service =>
    rw [e]
    exact .of_service mode (h.1.congr rfl)
  | repeater =>
    rwa [State.resendWaiting_of_no_place (.inl (by rw [(h.2 mode).params]; rfl))]

theorem listSound_of_empty {l : Vector (Option Address) 4} (empty : ∀ i : Fin 4, l.get i = none) : ListSound l :=
  fun i _ _ address => absurd (empty i) address

/-- At power-on the identity list is the strapped address's (R23). -/
theorem identityOf_sound (a : Address) : ListSound (identityOf a) ∧
    (modeOf a = .service → (identityOf a).get 0 = some a) ∧
    (modeOf a = .repeater → ∀ i : Fin 4, (identityOf a).get i = none) := by
  have empty : ∀ i : Fin 4, (#v[none, none, none, none] : Vector (Option Address) 4).get i = none := by decide
  unfold identityOf
  cases modeOf a with
  | service =>
    have free : ¬ heldElsewhere #v[none, none, none, none] 0 (some a) = true := by
      simp [heldElsewhere_iff, empty]
    exact ⟨(listSound_of_empty empty).set free, fun _ => rfl, Mode.noConfusion⟩
  | repeater => exact ⟨listSound_of_empty empty, Mode.noConfusion, fun _ => empty⟩

/-- The part at power-on, its reset pin released or still asserted, whatever its queue of commands. -/
theorem State.powerOn_modeSound (g m : Byte) (pin : Bool) {slots : Vector Slot 8}
    (idle : ∀ k : Fin 8, (slots.get k).isOutstanding = false) (pending : List Instr) :
    ({ State.powerOn g m with resetAsserted := pin, slots := slots, pending := pending } : State).ModeSound := by
  obtain ⟨identity, service, rep⟩ := identityOf_sound ⟨g, m⟩
  have managers : ∀ i : Fin 4, (#v[none, none, none, none] : Vector (Option Address) 4).get i = none := by decide
  refine ⟨⟨⟨rfl, service, rep⟩, identity, listSound_of_empty managers⟩, fun mode => ?_⟩
  exact
    { mode := mode, own := rfl, urgent := rfl, normal := rfl, log := rfl, delivery := rfl, replies := rfl,
      requests := rfl, active := rfl, session := rfl, epoch := rfl, params := rfl, managers := managers, slots := idle,
      counters := fun c _ => by cases c <;> rfl, ltx := rfl, ptx := PortTx.noConfusion }

theorem exec_modeSound {c : Instr} {s t : State} (h : s.ModeSound) (hn : exec c s = .next t) : t.ModeSound := by
  have command : (∀ g m, c ≠ .powerOnReset g m) → c ≠ .powerOnResetAssert → t.ModeSound := by
    intro release assert
    have block := blockEffect_modeSound c h
    rcases exec_cases hn release assert with same | same | same | same <;> rw [same]
    · exact h
    · exact block
    · exact State.settle_modeSound block
    · exact State.resendWaiting_modeSound (State.settle_modeSound h)
  cases c with
  | powerOnReset g m =>
    obtain rfl := Host.Outcome.next.inj hn
    exact State.powerOn_modeSound g m false (slots := State.reset.slots) (by decide) s.pending
  | powerOnResetAssert =>
    obtain rfl := Host.Outcome.next.inj hn
    exact State.powerOn_modeSound _ _ true (by decide) s.pending
  | _ => exact command (by simp) (by simp)

/-- The timer and the queue of commands are no part of the mode. -/
theorem State.ModeSound.with_timer {s : State} (h : s.ModeSound) (timer : Word32) (pending : List Instr) :
    ({ s with timer := timer, pending := pending } : State).ModeSound :=
  ⟨h.1.congr rfl, fun rep => { h.2 rep with }⟩

/-- Settles O55: a command keeps the mode's part of the state, in REPEATER mode with nothing to do at its event's end,
and a millisecond touches none of it. -/
theorem stepKeepsModeAndLists : Obligations.StepKeepsModeAndLists := by
  rintro s t ⟨lists, quiet⟩ hn
  have sound : s.ModeSound := ⟨lists, (repeaterQuiet_iff s).1 quiet⟩
  have kept : t.ModeSound := by
    unfold step at hn
    split at hn
    · obtain rfl := Host.Outcome.next.inj hn
      unfold State.tick
      split
      · exact sound
      · exact sound.with_timer (s.timer + 1) s.pending
    · rename_i c rest _
      exact exec_modeSound (sound.with_timer s.timer rest) hn
  exact ⟨kept.1, (repeaterQuiet_iff t).2 kept.2⟩

end Sys2Proof.Machine
end

section
/-! Which checks refuse a request before its command's own, and who has authority (R136, R138, R139, R161). -/

namespace Sys2Proof.Machine

/-! ### A request as the run of its command -/

/-- The answer of a command's run over a ready head (R136, R140). -/
theorem State.Serves.answers {s t : State} {r : Request} {c : Command} {operands : List Byte} {a : Answer}
    (served : s.Serves r c.octet operands) (run : State.runOf (some c) r s = (t, a)) :
    s.event (fun s => s.serve (some c) (State.runOf (some c))) = .next (t.reply r a).settle := by
  rw [served.command c rfl, run]

/-! ### Too few operand octets (R138 check 2) -/

/-- The operand octets a command needs (11.3). -/
def Command.operandCount : Command → Nat
  | .status => 0
  | .paramRead => 1
  | .paramWrite => 3
  | .listRead => 1
  | .listWrite => 5
  | .tableRead => 3
  | .countersRead => 3
  | .sessionOpen => 0
  | .entryInsert => 10
  | .entryReplace => 10
  | .entryRemove => 1
  | .sessionCommit => 0
  | .sessionDiscard => 0
  | .noticeAck => 2
  | .restart => 0

section
variable {s : State} {r : Request} {c : Command}

theorem State.runOf_of_short (short : r.operands.length < c.operandCount) :
    State.runOf (some c) r s = s.deny .badOperand := by
  have read : ∀ {l : List Byte}, r.operands = l → ¬ l.length < c.operandCount → False := fun e enough =>
    enough (e ▸ short)
  cases c with
  | status | sessionOpen | sessionCommit | sessionDiscard | restart => exact absurd short (Nat.not_lt_zero _)
  | _ =>
    simp only [State.runOf, State.runParamRead, State.runParamWrite, State.runListRead, State.runListWrite,
      State.runTableRead, State.runCountersRead, State.runEntryInsert, State.runEntryReplace, State.runEntryRemove,
      State.runNoticeAck]
    split
    · exact (read ‹_› (by simp [Command.operandCount])).elim
    · rfl

/-! ### Without authority, without a session (R138 check 3, R161 S1 and S2) -/

/-- The commands of an open session's owner (R161). -/
def Command.edits : Command → Bool
  | .entryInsert => true
  | .entryReplace => true
  | .entryRemove => true
  | .sessionCommit => true
  | .sessionDiscard => true
  | _ => false

/-- The commands that always need authority (R139). -/
def Command.modifies : Command → Bool
  | .paramWrite => true
  | .listWrite => true
  | .sessionOpen => true
  | .noticeAck => true
  | .restart => true
  | c => c.edits

/-- An entry's operands, where there are as many as it needs (11.4). -/
theorem exists_entry_operands {l : List Byte} (enough : 10 ≤ l.length) :
    ∃ p form g lo hi act pol lab x y rest, l = p :: form :: g :: lo :: hi :: act :: pol :: lab :: x :: y :: rest :=
  ⟨l[0], l[1], l[2], l[3], l[4], l[5], l[6], l[7], l[8], l[9], l.drop 10,
    by simp only [List.getElem_cons_drop, List.drop_zero]⟩

/-- With its operands there, an edit is its owner's alone. -/
theorem State.runOf_edits (edits : c.edits = true) (enough : c.operandCount ≤ r.operands.length) :
    ∃ run, State.runOf (some c) r s = s.asOwner r.source run := by
  cases c with
  | sessionCommit => exact ⟨fun x s => s.commitSession x, rfl⟩
  | sessionDiscard => exact ⟨fun _ s => s.discardSession, rfl⟩
  | entryRemove =>
    obtain ⟨p, rest, operands⟩ := List.exists_cons_of_length_pos (Nat.lt_of_lt_of_le Nat.zero_lt_one enough)
    exact ⟨fun x s => s.removeEntry x p.toNat, by rw [State.runOf, State.runEntryRemove, operands]⟩
  | entryInsert =>
    obtain ⟨p, form, g, lo, hi, act, pol, lab, x, y, rest, operands⟩ := exists_entry_operands enough
    exact ⟨fun x s => s.insertEntry x p.toNat (readRule form g lo hi act pol lab),
      by rw [State.runOf, State.runEntryInsert, operands]⟩
  | entryReplace =>
    obtain ⟨p, form, g, lo, hi, act, pol, lab, x, y, rest, operands⟩ := exists_entry_operands enough
    exact ⟨fun x s => s.replaceEntry x p.toNat (readRule form g lo hi act pol lab),
      by rw [State.runOf, State.runEntryReplace, operands]⟩
  | _ => cases edits

/-- With its operands there, a modifying command asks for authority first (R138). -/
theorem State.runOf_modifies (modifies : c.modifies = true) (enough : c.operandCount ≤ r.operands.length) :
    ∃ run, State.runOf (some c) r s = s.ifAuthorized r.source run := by
  by_cases edits : c.edits = true
  · obtain ⟨run, e⟩ := State.runOf_edits (s := s) edits enough
    exact ⟨_, e⟩
  cases c with
  | paramWrite =>
    have enough : 3 ≤ r.operands.length := enough
    have operands : r.operands = r.operands[0] :: r.operands[1] :: r.operands[2] :: r.operands.drop 3 := by
      simp only [List.getElem_cons_drop, List.drop_zero]
    rw [State.runOf, State.runParamWrite, operands]
    exact ⟨_, rfl⟩
  | listWrite =>
    have enough : 5 ≤ r.operands.length := enough
    have operands : r.operands = r.operands[0] :: r.operands[1] :: r.operands[2] :: r.operands[3] :: r.operands[4] ::
        r.operands.drop 5 := by
      simp only [List.getElem_cons_drop, List.drop_zero]
    rw [State.runOf, State.runListWrite, operands]
    exact ⟨_, rfl⟩
  | sessionOpen => exact ⟨_, by rw [State.runOf, State.runSessionOpen]⟩
  | noticeAck =>
    have enough : 2 ≤ r.operands.length := enough
    have operands : r.operands = r.operands[0] :: r.operands[1] :: r.operands.drop 2 := by
      simp only [List.getElem_cons_drop, List.drop_zero]
    rw [State.runOf, State.runNoticeAck, operands]
    exact ⟨_, rfl⟩
  | restart => exact ⟨(s.restart r, .ok []), rfl⟩
  | entryInsert | entryReplace | entryRemove | sessionCommit | sessionDiscard => exact absurd rfl edits
  | _ => cases modifies

end

section
variable {s : State} {who : Requester}

theorem State.ifAuthorized_of_not (no : s.authorized who = false) (run : State × Answer) :
    s.ifAuthorized who run = s.deny .notAuthorized := if_neg (by simp [no])

variable (yes : s.authorized who = true)
include yes

theorem State.asOwner_of_closed (closed : s.session = none) (run : Session → State → State × Answer) :
    s.asOwner who run = s.deny .noSession := by
  rw [State.asOwner, State.ifAuthorized, if_pos yes, closed]

theorem State.asOwner_of_other {x : Session} (opened : s.session = some x) (other : x.owner ≠ who.owner)
    (run : Session → State → State × Answer) : s.asOwner who run = (s, ⟨.sessionBusy, x.owner.octets⟩) := by
  rw [State.asOwner, State.ifAuthorized, if_pos yes, opened]
  exact if_neg other

end

/-! ### Authority (R139) -/

/-- The entries of a list, by position. -/
theorem toList_eq_ofFn {α : Type} {n : Nat} (v : Vector α n) : v.toList = List.ofFn v.get :=
  List.ext_getElem (by simp) fun i _ _ => by
    rw [List.getElem_ofFn]
    rfl

theorem State.authorized_loop_iff (s : State) (sa : Address) :
    s.authorized (.loop sa) = true ↔
      (∀ i : Fin 4, s.managers.get i = none) ∨ ∃ i : Fin 4, s.managers.get i = some sa := by
  simp only [State.authorized, listed, Bool.or_eq_true, decide_eq_true_eq, toList_eq_ofFn, List.mem_ofFn,
    forall_exists_index, forall_apply_eq_imp_iff]

/-- Settles O33: each check in its order, over the commands that make it. -/
theorem refusedCommandOnlyReplies : Obligations.RefusedCommandOnlyReplies := by
  have short : ∀ (c : Command) (s : State) (r : Request) (operands : List Byte), s.Serves r c.octet operands →
      operands.length < c.operandCount →
      s.event (fun s => s.serve (some c) (State.runOf (some c))) = .next (s.reply r ⟨.badOperand, []⟩).settle :=
    fun c s r operands served few => served.answers (State.runOf_of_short (served.operands ▸ few))
  have unauthorized : ∀ c : Command, c.modifies = true → ∀ (s : State) (r : Request) (operands : List Byte),
      s.Serves r c.octet operands → c.operandCount ≤ operands.length → s.authorized r.source = false →
      s.event (fun s => s.serve (some c) (State.runOf (some c))) = .next (s.reply r ⟨.notAuthorized, []⟩).settle := by
    intro c modifies s r operands served enough no
    obtain ⟨run, e⟩ := State.runOf_modifies (s := s) modifies (served.operands ▸ enough)
    exact served.answers (e.trans (State.ifAuthorized_of_not no run))
  have edit : ∀ c : Command, c.edits = true → ∀ (s : State) (r : Request) (operands : List Byte),
      s.Serves r c.octet operands → c.operandCount ≤ operands.length → s.authorized r.source = true →
      (s.session = none →
        s.event (fun s => s.serve (some c) (State.runOf (some c))) = .next (s.reply r ⟨.noSession, []⟩).settle) ∧
      ∀ x, s.session = some x → x.owner ≠ r.source.owner →
        s.event (fun s => s.serve (some c) (State.runOf (some c))) =
          .next (s.reply r ⟨.sessionBusy, x.owner.octets⟩).settle := by
    intro c edits s r operands served enough yes
    obtain ⟨run, e⟩ := State.runOf_edits (s := s) edits (served.operands ▸ enough)
    exact ⟨fun closed => served.answers (e.trans (State.asOwner_of_closed yes closed run)),
      fun x opened other => served.answers (e.trans (State.asOwner_of_other yes opened other run))⟩
  refine ⟨fun row mem => ?short, fun row mem => ?unauthorized, fun row mem => ?edit, fun c mem s running _ => ?none,
    fun s => ⟨s.authorized_loop_iff, fun _ => rfl⟩⟩
  case short =>
    simp only [List.mem_cons, List.not_mem_nil, or_false] at mem
    rcases mem with rfl | rfl | rfl | rfl | rfl | rfl | rfl | rfl | rfl | rfl
    · exact short .paramRead
    · exact short .paramWrite
    · exact short .listRead
    · exact short .listWrite
    · exact short .tableRead
    · exact short .countersRead
    · exact short .entryInsert
    · exact short .entryReplace
    · exact short .entryRemove
    · exact short .noticeAck
  case unauthorized =>
    simp only [List.mem_cons, List.not_mem_nil, or_false] at mem
    rcases mem with rfl | rfl | rfl | rfl | rfl | rfl | rfl | rfl | rfl | rfl
    · exact unauthorized .paramWrite rfl
    · exact unauthorized .listWrite rfl
    · exact unauthorized .sessionOpen rfl
    · exact unauthorized .entryInsert rfl
    · exact unauthorized .entryReplace rfl
    · exact unauthorized .entryRemove rfl
    · exact unauthorized .sessionCommit rfl
    · exact unauthorized .sessionDiscard rfl
    · exact unauthorized .noticeAck rfl
    · exact unauthorized .restart rfl
  case edit =>
    obtain ⟨c, edits, code, count, run⟩ : ∃ c : Command, c.edits = true ∧ row.2.1 = c.octet ∧
        row.2.2 = c.operandCount ∧ ∀ s, exec row.1 s = s.event (fun s => s.serve (some c) (State.runOf (some c))) := by
      simp only [List.mem_cons, List.not_mem_nil, or_false] at mem
      rcases mem with rfl | rfl | rfl | rfl | rfl
      · exact ⟨.entryInsert, rfl, rfl, rfl, fun _ => rfl⟩
      · exact ⟨.entryReplace, rfl, rfl, rfl, fun _ => rfl⟩
      · exact ⟨.entryRemove, rfl, rfl, rfl, fun _ => rfl⟩
      · exact ⟨.sessionCommit, rfl, rfl, rfl, fun _ => rfl⟩
      · exact ⟨.sessionDiscard, rfl, rfl, rfl, fun _ => rfl⟩
    rw [code, count]
    intro s r operands served enough yes
    obtain ⟨closed, busy⟩ := edit c edits s r operands served enough yes
    refine ⟨fun none => (run s).trans (closed none), fun x opened other => ?_⟩
    refine ((run s).trans (busy x opened other)).trans ?_
    cases x.owner <;> rfl
  case none =>
    have row := fun c => exec_row running c
    simp only [List.mem_cons, List.not_mem_nil, or_false] at mem
    rcases mem with rfl | rfl | rfl | rfl | rfl | rfl | rfl | rfl | rfl | rfl | rfl | rfl | rfl | rfl | rfl | rfl
    all_goals exact row _

end Sys2Proof.Machine
end

section
/-! STATUS: the part as it stands, in 37 octets, and what two of its figures count (R69, R77, R94, R141). -/

namespace Sys2Proof.Machine

/-! ### Figures (R69, R77, R94) -/

theorem State.outboundReserved_eq (s : State) :
    s.outboundReserved = (s.urgent.map (fun f => 8 + f.declared)).sum + (s.normal.map (fun f => 8 + f.declared)).sum +
      s.ltx.reservation := rfl

/-- The closing flag frees the reservation of the station frame that was inserted (R69, R77). -/
theorem State.endInsertion_outboundReserved {s : State} {f : StationFrame} (inserting : s.ltx = .inserting (.station f)) :
    s.endInsertion.outboundReserved + (8 + f.declared) = s.outboundReserved := by
  have ended : s.endInsertion = { s.count .inserted with ltx := .idle } := by rw [State.endInsertion, inserting]
  rw [ended, s.outboundReserved_eq, inserting]
  rfl

theorem LogEntry.reports_iff (e : LogEntry) : e.reports = decide (e.origin ≠ .own ∧ e.silent = false) := by
  rw [LogEntry.reports]
  cases e.silent <;> simp

/-! ### The 37 octets (11.3) -/

theorem State.slots_toList (s : State) :
    s.slots.toList = [s.slot .started, s.slot .sessionExpired, s.slot .deliveryRefused, s.slot .orphan,
      s.slot .transitRefused, s.slot .underrun, s.slot .lineUp, s.slot .lineDown] := toList_eq_ofFn _

theorem State.statusData_length (s : State) : s.statusData.length = 37 := by
  have owner : (ownerOctets (s.session.map (fun x => x.owner))).length = 3 := by
    generalize s.session.map (fun x => x.owner) = owner
    rcases owner with - | - | - <;> rfl
  simp [State.statusData, owner, Address.octets, be16, be32]

/-- Settles O35: the figures' sums, then the octets field by field. -/
theorem statusReportsThePart : Obligations.StatusReportsThePart := by
  refine ⟨fun s => ⟨?reserved, rfl, fun f inserting running => ?ends, ?budget⟩, fun s r operands served => ?status⟩
  case reserved =>
    rw [s.outboundReserved_eq]
    rcases s.ltx with - | - | ⟨- | -⟩ | - <;> rfl
  case ends => exact ⟨s.endInsertion, State.running_of_released _ running, State.endInsertion_outboundReserved inserting⟩
  case budget =>
    exact congrArg₂ (fun p q => (s.log.filter p).length + (s.reports.filter q).length)
      (funext LogEntry.reports_iff) (funext fun r => by cases r <;> rfl)
  case status =>
    intro code data
    have octets : s.statusData = data := by
      have mode : s.mode.octet = if s.mode = .service then 1 else 2 := by cases s.mode <;> rfl
      have line : s.sup.line.octet = if s.sup.line = .up then 1 else 0 := by cases s.sup.line <;> rfl
      have port : s.port.octet = if s.port = .active then 1 else 0 := by cases s.port <;> rfl
      have slot : ∀ x : Slot, x.octet = code x := fun x => by cases x <;> rfl
      rw [State.statusData, mode, line, port, s.slots_toList]
      simp only [List.map_cons, List.map_nil, slot, data]
      generalize s.session.map (fun x => x.owner) = owner
      rcases owner with - | - | - <;> rfl
    exact ⟨octets ▸ s.statusData_length, octets ▸ served.command .status rfl State.runStatus⟩

end Sys2Proof.Machine
end

section
/-! The commands that read parameters, lists and counters (R143, R146, R151, R152). -/

namespace Sys2Proof.Machine

/-! ### PARAM READ (R143) -/

/-- No parameter's code is ALL's. -/
theorem readParams_code (p : Param) : readParams (oct p.code) = some [p] := by
  have other : oct p.code ≠ 0xFF := by cases p <;> decide
  rw [readParams, if_neg other, p.ofOctet_code]
  rfl

theorem State.runParamRead_of_some {s : State} {r : Request} {v : Byte} {rest : List Byte} {ps : List Param}
    (operands : r.operands = v :: rest) (read : readParams v = some ps) :
    State.runParamRead r s = (s, ⟨.done, ps.flatMap s.params.record⟩) := by
  rw [State.runParamRead, operands]
  dsimp only
  rw [read]
  rfl

theorem State.runParamRead_of_none {s : State} {r : Request} {v : Byte} {rest : List Byte}
    (operands : r.operands = v :: rest) (read : readParams v = none) :
    State.runParamRead r s = (s, ⟨.badOperand, []⟩) := by
  rw [State.runParamRead, operands]
  dsimp only
  rw [read]
  rfl

/-- Settles O36: the values listed are those of the parameters, in the order of their codes. -/
theorem paramReadAnswersValues : Obligations.ParamReadAnswersValues := by
  intro s r v rest served ps values
  have answers : ∀ {a}, State.runParamRead r s = (s, a) → exec .paramRead s = .next (s.reply r a).settle :=
    fun run => State.Serves.answers (c := .paramRead) served run
  have listed : values = Param.all.map (fun p => (oct p.code, ps.read p)) := by
    have action : ps.defaultAction.octet.toNat = (match ps.defaultAction with
        | .pass => 0
        | .copy => 1
        | .drop => 2) := by
      cases ps.defaultAction <;> rfl
    simp only [Param.all, List.map_cons, List.map_nil, Params.read, action]
    rfl
  refine ⟨fun x mem named => answers ?_, fun all => answers ?_, fun unknown notAll => answers ?_⟩
  · rw [listed] at mem
    obtain ⟨p, -, rfl⟩ := List.mem_map.1 mem
    rw [State.runParamRead_of_some served.operands ((congrArg readParams named).trans (readParams_code p)), List.flatMap_singleton]
    rfl
  · rw [State.runParamRead_of_some served.operands (if_pos all), listed, List.flatMap_map]
    rfl
  · refine State.runParamRead_of_none served.operands ?_
    rw [readParams, if_neg notAll, Param.ofOctet_eq_none unknown]
    rfl

/-! ### LIST READ (R146) -/

/-- A list's four entries (11.3). -/
theorem list_octets (l : Vector (Option Address) 4) :
    l.toList.flatMap addressOrEmptyOctets =
      addressOrEmptyOctets (l.get 0) ++ addressOrEmptyOctets (l.get 1) ++ addressOrEmptyOctets (l.get 2) ++
        addressOrEmptyOctets (l.get 3) := by
  have entries : l.toList = [l.get 0, l.get 1, l.get 2, l.get 3] := toList_eq_ofFn l
  rw [entries]
  simp

theorem State.runListRead_of_some {s : State} {r : Request} {v : Byte} {rest : List Byte} {l : ListName}
    (operands : r.operands = v :: rest) (read : ListName.ofOctet v = some l) :
    State.runListRead r s =
      (s, ⟨.done, l.octet :: (addressOrEmptyOctets ((s.listOf l).get 0) ++ addressOrEmptyOctets ((s.listOf l).get 1) ++
        addressOrEmptyOctets ((s.listOf l).get 2) ++ addressOrEmptyOctets ((s.listOf l).get 3))⟩) := by
  rw [State.runListRead, operands]
  dsimp only
  rw [read, ← list_octets]
  rfl

theorem State.runListRead_of_none {s : State} {r : Request} {v : Byte} {rest : List Byte}
    (operands : r.operands = v :: rest) (read : ListName.ofOctet v = none) :
    State.runListRead r s = (s, ⟨.badOperand, []⟩) := by
  rw [State.runListRead, operands]
  dsimp only
  rw [read]
  rfl

/-- Settles O38, by the list named. -/
theorem listReadAnswersEntries : Obligations.ListReadAnswersEntries := by
  intro s r l rest served entry entries
  have answers : ∀ {a}, State.runListRead r s = (s, a) → exec .listRead s = .next (s.reply r a).settle :=
    fun run => State.Serves.answers (c := .listRead) served run
  have octets : entry = addressOrEmptyOctets := by
    funext x
    cases x <;> rfl
  simp only [entries, octets]
  refine ⟨fun identity => answers ?_, fun manager => answers ?_, fun unknown => answers ?_⟩
  · exact State.runListRead_of_some (l := .identity) served.operands (identity ▸ rfl)
  · exact State.runListRead_of_some (l := .manager) served.operands (manager ▸ rfl)
  · exact State.runListRead_of_none served.operands (ListName.ofOctet_eq_none unknown)

/-! ### COUNTERS READ (R151, R152) -/

section
variable {s : State} {r : Request} {first count flag : Byte} {rest : List Byte}
  (operands : r.operands = first :: count :: flag :: rest)
include operands

theorem State.runCountersRead_of_clear (clear : flag.getLsbD 0 = true) :
    State.runCountersRead r s = s.ifAuthorized r.source (s.readCounters first.toNat count.toNat true) := by
  rw [State.runCountersRead, operands]
  exact if_pos clear

theorem State.runCountersRead_of_read (clear : flag.getLsbD 0 = false) :
    State.runCountersRead r s = s.readCounters first.toNat count.toNat false := by
  rw [State.runCountersRead, operands]
  exact if_neg (Bool.eq_false_iff.1 clear)

/-- With authority where it is needed, the flag decides on the clearing alone. -/
theorem State.runCountersRead_of_allowed (allowed : flag.getLsbD 0 = false ∨ s.authorized r.source = true) :
    State.runCountersRead r s = s.readCounters first.toNat count.toNat (flag.getLsbD 0) := by
  cases clear : flag.getLsbD 0 with
  | false => exact State.runCountersRead_of_read operands clear
  | true =>
    rw [State.runCountersRead_of_clear operands clear]
    exact if_pos (allowed.resolve_left (Bool.eq_false_iff.not.2 (not_not.2 clear)))

end

theorem State.readCounters_of_fits {s : State} {first count : Nat}
    (fits : first ≤ 15 ∧ 1 ≤ count ∧ count ≤ 16 ∧ first + count ≤ 16) (clear : Bool) :
    s.readCounters first count clear =
      (if clear then s.clearCounters first count else s, ⟨.done, s.counterRecords first count⟩) :=
  if_pos (by rw [inRange_iff]; omega)

theorem State.readCounters_of_not_fits {s : State} {first count : Nat}
    (outside : ¬ (first ≤ 15 ∧ 1 ≤ count ∧ count ≤ 16 ∧ first + count ≤ 16)) (clear : Bool) :
    s.readCounters first count clear = (s, ⟨.badOperand, []⟩) :=
  if_neg (by rw [inRange_iff]; omega)

/-- Settles O41: the flag decides on authority, the range on the answer. -/
theorem countersReadAndClear : Obligations.CountersReadAndClear := by
  refine ⟨fun s r first count flag rest served => ?read, rfl⟩
  intro clear fits named data
  have answers : ∀ {t a}, State.runCountersRead r s = (t, a) → exec .countersRead s = .next (t.reply r a).settle :=
    fun run => State.Serves.answers (c := .countersRead) served run
  refine ⟨fun flagged no => answers ?_, fun allowed => ?_⟩
  · exact (State.runCountersRead_of_clear served.operands flagged).trans (State.ifAuthorized_of_not no _)
  have run := State.runCountersRead_of_allowed served.operands allowed
  refine ⟨fun outside => answers ?_, fun inside kept => answers ?_, fun inside flagged => ?_⟩
  · exact run.trans (State.readCounters_of_not_fits outside _)
  · rw [run, State.readCounters_of_fits inside, if_neg (Bool.eq_false_iff.1 kept)]
    rfl
  · refine ⟨(s.clearCounters first.toNat count.toNat).counters, fun i => ?_, answers ?_⟩
    · have get : ∀ f : Fin 16 → Word32, (Vector.ofFn f).get i = f i := fun f => Vector.getElem_ofFn _
      simp only [State.clearCounters, get, named, decide_eq_true_eq]
    · rw [run, State.readCounters_of_fits inside, if_pos flagged]
      rfl

end Sys2Proof.Machine
end

section
/-! SESSION COMMIT (R140, R158, R166 to R168). -/

namespace Sys2Proof.Machine

/-- Settles O45: the owner's commit, its reply in the epoch it has made. -/
theorem commitInstallsStagedTable : Obligations.CommitInstallsStagedTable := by
  intro s r x operands served authorized opened owner
  have table : commitTable s.active x.staged = x.staged.map (fun e =>
      ⟨e.rule, e.origin.elim 0 (fun o => ((s.active[o]?).map (fun a => a.hits)).getD 0)⟩) :=
    List.map_congr_left fun e _ => by cases h : e.origin <;> rfl
  have run := State.asOwner_of_owner authorized opened owner (fun x s => s.commitSession x)
  rw [State.commitSession, table] at run
  exact State.Serves.answers (c := .sessionCommit) served run

end Sys2Proof.Machine
end

section
/-! RESTART: what it empties, aborts and flushes, and the notice of it behind its reply (R21, R64, R65, R80, R97, R112,
R130, R153, R154, R173, R188). -/

namespace Sys2Proof.Machine

/-! ### Aborts (R65, R130) -/

theorem LoopTx.abort_eq (l : LoopTx) : l.abort = if l = .idle then .idle else .aborting := by cases l <;> rfl

theorem PortTx.abortDelivery_eq (p : PortTx) : p.abortDelivery = if p = .delivery then .aborting else p := by
  cases p <;> rfl

/-! ### The state RESTART leaves (R153) -/

theorem State.runRestart_of_authorized {s : State} {r : Request} (authorized : s.authorized r.source = true) :
    State.runRestart r s = (s.restart r, ⟨.done, []⟩) := if_pos authorized

/-- STARTED is raised on slots that are all IDLE (R188). -/
theorem State.restart_slot (s : State) (r : Request) (k : NoticeKind) :
    (s.restart r).slot k = if k = .started then .pending 1 r.source.detail else .idle := by
  have idle : ∀ i : Fin 8, (Vector.replicate 8 Slot.idle).get i = .idle := by decide
  have slots : (s.restart r).slots =
      (Vector.replicate 8 Slot.idle).set (noticeCode .started) (.pending 1 r.source.detail) := rfl
  rw [State.slot, slots, get_set, idle]
  cases k <;> rfl

/-- A cause of PORT STATUS is the station port's alone (R123). -/
theorem State.causeStatus_own (s : State) : s.causeStatus.own = s.own ∧ s.causeStatus.params = s.params := by
  obtain ⟨_, _, e⟩ := s.causeStatus_frame
  rw [e]
  exact ⟨rfl, rfl⟩

/-- RESTART leaves its own request alone, no own frame, and the parameters (R80, R153, R154). -/
theorem State.restart_queues (s : State) (r : Request) :
    (s.restart r).own = [] ∧ (s.restart r).requests = [r] ∧ (s.restart r).params = s.params := by
  obtain ⟨own, params⟩ := State.causeStatus_own { s.restartLoop.restartQueues.flushLog with
    flushed := saturate (s.flushed + (s.urgent.length + s.normal.length)) }
  exact ⟨own, rfl, params⟩

/-! ### STARTED's frame (R154, R188) -/

section
variable {s : State} {d : Detail} (empty : s.requests = [])
include empty

theorem State.settle_requests_of_empty : s.settle.requests = [] := by
  have waits : s.readyHead = none := by rw [State.readyHead, empty]
  obtain ⟨_, _, _, e⟩ := s.placeNotices_frame
  rw [State.settle_of_none waits, e]
  exact empty

variable (started : ∀ k, s.slot k = if k = .started then .pending 1 d else .idle)
include started

/-- Alone PENDING, STARTED is sent as soon as NOTICE_DEST is set and a place is free (R180, R181). -/
theorem State.settle_own_of_started (place : s.own.length < 6) :
    s.settle.own.map (fun f => f.header.kind) =
      s.own.map (fun f => f.header.kind) ++ if s.params.noticeDest = ⟨0, 0⟩ then [] else [0x04] := by
  have waits : s.readyHead = none := by rw [State.readyHead, empty]
  split
  · rename_i unset
    rw [State.settle_of_nothing_left waits (.inl unset), List.append_nil]
  · rename_i dest
    have pending : s.slot .started = .pending 1 d := started .started
    have calm : ∀ k, (s.slot k).isOutstanding = false := fun k => by
      rw [started]
      split <;> rfl
    have sendable : s.sendable = some .started := by
      refine (s.sendable_eq_some _).2 ⟨by rw [pending]; rfl, fun j hj => ?_, dest, fun j hj => ?_⟩
      · rw [started] at hj
        split at hj
        · rename_i here
          rw [here]
        · cases hj
      · rw [calm] at hj
        cases hj
    have sent := State.sendFirst_of_place sendable pending (s.ownPlace_iff.2 place)
    have resends : s.sendFirst.resendWaiting = s.sendFirst := by
      refine State.resendWaiting_of_none fun k => ?_
      rw [sent, s.slot_set]
      split
      · rfl
      · rename_i other
        rw [started, if_neg other]
        rfl
    rw [State.settle_of_none waits, State.placeNotices, resends, sent, List.map_append]
    rfl

end

/-- Settles O48: the state of R153's order, then the reply, then STARTED's frame. -/
theorem restartEmptiesTraffic : Obligations.RestartEmptiesTraffic := by
  intro s r operands served authorized s1 s2 t replied
  have emptied : s1 = { s.restartLoop.restartQueues.flushLog with
      flushed := saturate (s.flushed + (s.urgent.length + s.normal.length)) } := by
    simp only [s1, ← LoopTx.abort_eq, ← PortTx.abortDelivery_eq]
    rfl
  have raised : s2.raise .started r.source.detail = s.restart r := by
    simp only [s2, emptied]
    rfl
  have ended : t = ((s.restart r).reply r ⟨.done, []⟩).settle := by
    rw [← raised]
    exact congrArg (fun d => ((s2.raise .started d).reply r ⟨.done, []⟩).settle) (by cases r.source <;> rfl)
  obtain ⟨own, requests, params⟩ := s.restart_queues r
  have reply_own : ((s.restart r).reply r ⟨.done, []⟩).own.map (fun f => f.header.kind) = replied := by
    simp only [State.reply, replied]
    cases r.source with
    | loop sa => simp [own, State.ownFrame, kindReply]
    | station tag => simp [own]
  have place : ((s.restart r).reply r ⟨.done, []⟩).own.length < 6 := by
    have few : replied.length < 6 := by
      simp only [replied]
      cases r.source with
      | loop _ => exact (by decide : 1 < 6)
      | station _ => exact (by decide : 0 < 6)
    rwa [← reply_own, List.length_map] at few
  obtain ⟨_, _, e⟩ := (s.restart r).reply_frame r ⟨.done, []⟩
  have empty : ((s.restart r).reply r ⟨.done, []⟩).requests = [] := by
    rw [e]
    exact congrArg List.tail requests
  have dest : ((s.restart r).reply r ⟨.done, []⟩).params = s.params := by rw [e]; exact params
  have started : ∀ k, ((s.restart r).reply r ⟨.done, []⟩).slot k =
      if k = .started then .pending 1 r.source.detail else .idle := by
    rw [e]
    exact s.restart_slot r
  rw [ended]
  refine ⟨State.Serves.answers (c := .restart) served (State.runRestart_of_authorized authorized),
    State.settle_requests_of_empty empty, ?_⟩
  rw [State.settle_own_of_started empty started place, reply_own, dest]

end Sys2Proof.Machine
end

section
/-! SESSION OPEN, SESSION DISCARD and ENTRY INSERT (R158 to R163, R169). -/

namespace Sys2Proof.Machine

/-! ### SESSION OPEN and SESSION DISCARD (R160, R162, R169) -/

section
variable {s : State} {r : Request} (authorized : s.authorized r.source = true)
include authorized

theorem State.runSessionOpen_of_closed (closed : s.session = none) :
    State.runSessionOpen r s =
      ({ s with session := some ⟨r.source.owner, stageFrom 0 s.active, s.timer⟩ },
        ⟨.done, r.source.owner.octets ++ [oct s.active.length]⟩) := by
  rw [State.runSessionOpen, State.ifAuthorized, if_pos authorized, closed, ← stageFrom_length 0 s.active]
  rfl

theorem State.runSessionOpen_of_owner {x : Session} (opened : s.session = some x) (owner : x.owner = r.source.owner) :
    State.runSessionOpen r s =
      ({ s with session := some { x with lastCommand := s.timer } },
        ⟨.done, r.source.owner.octets ++ [oct x.staged.length]⟩) := by
  rw [State.runSessionOpen, State.ifAuthorized, if_pos authorized, opened, ← owner]
  exact if_pos rfl

theorem State.runSessionOpen_of_other {x : Session} (opened : s.session = some x) (other : x.owner ≠ r.source.owner) :
    State.runSessionOpen r s = (s, ⟨.sessionBusy, x.owner.octets⟩) := by
  rw [State.runSessionOpen, State.ifAuthorized, if_pos authorized, opened]
  exact if_neg other

theorem State.runSessionDiscard_of_owner {x : Session} (opened : s.session = some x) (owner : x.owner = r.source.owner) :
    State.runSessionDiscard r s = ({ s with session := none }, ⟨.done, []⟩) :=
  State.asOwner_of_owner authorized opened owner (fun _ s => s.discardSession)

end

/-- Settles O42: SESSION OPEN by the session's state, and the owner's SESSION DISCARD. -/
theorem sessionOpenAndDiscard : Obligations.SessionOpenAndDiscard := by
  intro s r operands authorized
  exact ⟨fun served =>
    ⟨fun closed => ⟨stageFrom 0 s.active, stageFrom_length 0 s.active,
        fun p => by simpa only [Nat.zero_add] using stageFrom_getElem? 0 s.active p,
        served.answers (c := .sessionOpen) (State.runSessionOpen_of_closed authorized closed)⟩,
      fun _ opened owner =>
        served.answers (c := .sessionOpen) (State.runSessionOpen_of_owner authorized opened owner),
      fun _ opened other =>
        served.answers (c := .sessionOpen) (State.runSessionOpen_of_other authorized opened other)⟩,
    fun _ served opened owner =>
      served.answers (c := .sessionDiscard) (State.runSessionDiscard_of_owner authorized opened owner)⟩

/-! ### ENTRY INSERT (R161, R163) -/

/-- Check S6 over the whole staged table (R161). -/
theorem duplicates_none_iff (staged : List StagedEntry) (k : Key) :
    duplicates staged none k = true ↔ ∃ e ∈ staged, e.rule.key = k := by
  rw [duplicates_iff]
  constructor
  · rintro ⟨i, e, -, at_i, same⟩
    exact ⟨e, List.mem_of_getElem? at_i, same⟩
  · rintro ⟨e, mem, same⟩
    obtain ⟨i, at_i⟩ := List.mem_iff_getElem?.1 mem
    exact ⟨i, e, Option.some_ne_none i, at_i, same⟩

theorem insertIdx_eq_take_cons_drop {α : Type} {l : List α} {position : Nat} (inside : position ≤ l.length) (a : α) :
    l.insertIdx position a = l.take position ++ a :: l.drop position := by
  obtain ⟨before, after, rfl, rfl, inserted⟩ := List.exists_of_modifyTailIdx (List.cons a) inside
  rw [List.take_left, List.drop_left]
  exact inserted

section
variable {x : Session} {position : Nat} (s : State) {rule : Rule}

theorem State.insertEntry_full (full : 48 ≤ x.staged.length) :
    s.insertEntry x position (some rule) = (s, ⟨.tableFull, []⟩) := if_pos full

variable (room : x.staged.length < 48)
include room

theorem State.insertEntry_beyond (beyond : x.staged.length < position) :
    s.insertEntry x position (some rule) = (s, ⟨.noEntry, []⟩) :=
  (if_neg (Nat.not_le.2 room)).trans (if_pos beyond)

variable (inside : position ≤ x.staged.length)
include inside

/-- In a place that the table has, check S6 decides. -/
theorem State.insertEntry_inside :
    s.insertEntry x position (some rule) =
      if duplicates x.staged none rule.key then s.deny .duplicate
      else s.edited x (x.staged.insertIdx position ⟨rule, none⟩) :=
  (if_neg (Nat.not_le.2 room)).trans (if_neg (Nat.not_lt.2 inside))

theorem State.insertEntry_duplicate (held : ∃ e ∈ x.staged, e.rule.key = rule.key) :
    s.insertEntry x position (some rule) = (s, ⟨.duplicate, []⟩) := by
  rw [State.insertEntry_inside s room inside, if_pos ((duplicates_none_iff _ _).2 held)]
  rfl

theorem State.insertEntry_new (new : ∀ e ∈ x.staged, e.rule.key ≠ rule.key) :
    s.insertEntry x position (some rule) =
      ({ s with session := some { x with
          staged := x.staged.take position ++ ⟨rule, none⟩ :: x.staged.drop position } },
        ⟨.done, [oct (x.staged.length + 1)]⟩) := by
  have single : ¬ duplicates x.staged none rule.key = true := by
    rw [duplicates_none_iff]
    rintro ⟨e, mem, same⟩
    exact new e mem same
  rw [State.insertEntry_inside s room inside, if_neg single, State.edited, List.length_insertIdx_of_le_length inside,
    insertIdx_eq_take_cons_drop inside]
  rfl

end

/-- The owner's ENTRY INSERT is the edit over the refreshed session, whatever the edit answers (R161). -/
theorem State.Serves.entryInsert {s t : State} {r : Request} {a : Answer} {x : Session}
    {p form g low high act pol label h1 h2 : Byte} {rest : List Byte}
    (served : s.Serves r 0x11 (p :: form :: g :: low :: high :: act :: pol :: label :: h1 :: h2 :: rest))
    (authorized : s.authorized r.source = true) (opened : s.session = some x) (owner : x.owner = r.source.owner)
    (edit : State.insertEntry { s with session := some { x with lastCommand := s.timer } }
      { x with lastCommand := s.timer } p.toNat (readRule form g low high act pol label) = (t, a)) :
    exec .entryInsert s = .next (t.reply r a).settle := by
  refine served.answers (c := .entryInsert) ?_
  rw [State.runOf, State.runEntryInsert, served.operands]
  exact (State.asOwner_of_owner authorized opened owner _).trans edit

/-- Settles O43: checks S3 to S6 in order, then the new entry, each over the refreshed session. -/
theorem entryInsertPlacesEntry : Obligations.EntryInsertPlacesEntry := by
  intro s r x p form g low high act pol label h1 h2 rest served authorized opened owner x1 s1 code bad
  have inserted : ∀ {t : State} {a : Answer},
      s1.insertEntry x1 p.toNat (readRule form g low high act pol label) = (t, a) →
        exec .entryInsert s = .next (t.reply r a).settle :=
    served.entryInsert authorized opened owner
  have unread : readRule form g low high act pol label = none ↔ bad := readRule_eq_none ..
  refine ⟨fun outOfRange => inserted ?s3, fun good full => inserted ?s4, fun good room beyond => inserted ?s5,
    fun rule formed group lowed highed acted poled labeled range room inside => ?read⟩
  case s3 =>
    rw [unread.2 outOfRange]
    rfl
  case s4 =>
    obtain ⟨rule, read⟩ := Option.ne_none_iff_exists'.1 (mt unread.1 good)
    rw [read]
    exact State.insertEntry_full s1 full
  case s5 =>
    obtain ⟨rule, read⟩ := Option.ne_none_iff_exists'.1 (mt unread.1 good)
    rw [read]
    exact State.insertEntry_beyond s1 room beyond
  case read =>
    have policy : pol = rule.policy.octet := by
      rw [poled]
      cases rule.policy <;> rfl
    have action : act = rule.action.octet := acted
    have read : readRule form g low high act pol label = some rule := by
      rw [formed, lowed, highed, action, policy, labeled]
      exact readRule_octets rule g group (lowed ▸ highed ▸ range)
    rw [read] at inserted
    exact ⟨fun held => inserted (State.insertEntry_duplicate s1 room inside held),
      fun new => inserted (State.insertEntry_new s1 room inside new)⟩

end Sys2Proof.Machine
end

section
/-! A notice's deadline: its resend or its end, and the order in which the waiting resends take places (R182, R183,
R187). -/

namespace Sys2Proof.Machine

/-! ### The deadline (R183, R187) -/

section
variable {s : State} {k : NoticeKind} {n : OutNotice} {start : Word32} {interval : Nat}
variable (outstanding : s.slot k = .outstanding n) (deadline : n.deadline = some (start, interval))
include outstanding deadline

/-- The three outcomes of an OUTSTANDING notice whose deadline runs. -/
theorem State.retryDeadline_of_running :
    s.retryDeadline k =
      if interval ≤ (s.timer - start).toNat then
        if n.sends ≤ s.params.noticeRetries then s.setSlot k (.outstanding { n with deadline := none })
        else (s.setSlot k .idle).count .noticesAbandoned
      else s := by
  rw [State.retryDeadline, outstanding]
  simp only [deadline, deadlineReached, decide_eq_true_eq]

theorem State.retryDeadline_of_early (early : (s.timer - start).toNat < interval) : s.retryDeadline k = s := by
  rw [State.retryDeadline_of_running outstanding deadline, if_neg (Nat.not_le.2 early)]

theorem State.retryDeadline_of_spent (reached : interval ≤ (s.timer - start).toNat)
    (spent : s.params.noticeRetries < n.sends) :
    s.retryDeadline k = (s.setSlot k .idle).count .noticesAbandoned := by
  rw [State.retryDeadline_of_running outstanding deadline, if_pos reached, if_neg (Nat.not_le.2 spent)]

theorem State.retryDeadline_of_due (reached : interval ≤ (s.timer - start).toNat)
    (left : n.sends ≤ s.params.noticeRetries) :
    s.retryDeadline k = s.setSlot k (.outstanding { n with deadline := none }) := by
  rw [State.retryDeadline_of_running outstanding deadline, if_pos reached, if_pos left]

end

theorem exec_noticeRetryDeadline {s : State} (running : s.resetAsserted = false) (k : NoticeKind) :
    exec (.noticeRetryDeadline k) s = .next (s.retryDeadline k).settle :=
  State.event_of_released (fun s => s.retryDeadline k) running

/-! ### What keeps a resend from a place keeps it from one later (R182, log entry 5) -/

/-- A place that the notice unit's turn leaves to a resend was there before: own frames are only added, and a notice
whose deadline runs stays as it is. -/
theorem State.resendPlace_of_later {s t : State} (params : t.params = s.params) (timer : t.timer = s.timer)
    (own : s.own.length ≤ t.own.length) (running : ∀ j, (s.slot j).runs = true → t.slot j = s.slot j)
    {k : NoticeKind} (place : t.resendPlace k = true) : s.resendPlace k = true := by
  obtain ⟨dest, free, calm⟩ := (t.resendPlace_iff k).1 place
  rw [params] at dest
  refine (s.resendPlace_iff k).2 ⟨dest, Nat.lt_of_le_of_lt own free, ?_⟩
  rintro ⟨j, m, start, interval, above, slot, deadline, reached, left⟩
  have runs : (s.slot j).runs = true :=
    Slot.runs_of_resendDue ((Slot.resendDue_iff _ _ _).2 ⟨m, start, interval, slot, deadline, reached, left⟩)
  exact calm ⟨j, m, start, interval, above, (running j runs).trans slot, deadline, timer ▸ reached, params ▸ left⟩

theorem State.resendOf_slot_of_runs {s : State} (i : NoticeKind) {j : NoticeKind} (runs : (s.slot j).runs = true) :
    (s.resendOf i).slot j = s.slot j := by
  by_cases same : j = i
  · subst same
    rw [State.resendOf_stay fun waits => by rw [((Slot.runs_iff _).1 runs).2] at waits; cases waits]
  · exact s.resendOf_slot same

theorem State.resendPlace_of_resendOf {s : State} {i k : NoticeKind} (place : (s.resendOf i).resendPlace k = true) :
    s.resendPlace k = true := by
  obtain ⟨_, _, e⟩ := s.resendOf_frame i
  exact State.resendPlace_of_later (by rw [e]) (by rw [e]) (s.resendOf_own i)
    (fun _ => State.resendOf_slot_of_runs i) place

theorem State.resendPlace_of_resends {l : List NoticeKind} {s : State} {k : NoticeKind}
    (place : (l.foldl State.resendOf s).resendPlace k = true) : s.resendPlace k = true := by
  induction l generalizing s with
  | nil => exact place
  | cons i l ih => exact State.resendPlace_of_resendOf (ih place)

theorem State.resendPlace_of_sendFirst {s : State} {k : NoticeKind} (place : s.sendFirst.resendPlace k = true) :
    s.resendPlace k = true := by
  obtain ⟨_, _, _, e⟩ := s.sendFirst_frame
  refine State.resendPlace_of_later (by rw [e]) (by rw [e]) s.sendFirst_own (fun j runs => ?_) place
  obtain ⟨n, hn⟩ := (Slot.isOutstanding_iff _).1 ((Slot.runs_iff _).1 runs).1
  rw [hn]
  exact State.sendFirst_slot hn

/-- What may go before a higher resend is less than what may go before a lower one. -/
theorem State.resendPlace_of_lower {s : State} {j k : NoticeKind} (above : (noticeCode k).val < (noticeCode j).val)
    (place : s.resendPlace k = true) : s.resendPlace j = true := by
  obtain ⟨dest, free, calm⟩ := (s.resendPlace_iff k).1 place
  refine (s.resendPlace_iff j).2 ⟨dest, free, ?_⟩
  rintro ⟨i, m, start, interval, higher, due⟩
  exact calm ⟨i, m, start, interval, above.trans higher, due⟩

/-! ### The resends' turns, highest first (R182) -/

/-- A resend's frame and slot (R183, 11.5). -/
theorem State.resend_eq (s : State) (k : NoticeKind) (n : OutNotice) :
    s.resend k n =
      { s with
        own := s.own ++
          [⟨⟨s.params.noticeDest, s.strapped, 0x04, ⟨0, false, false⟩, 13⟩,
            [oct (noticeCode k), n.seq, oct n.occurrences, s.epoch] ++ be32 s.timer ++ n.detail.octets⟩]
        slots := s.slots.set (noticeCode k)
          (.outstanding { n with sends := n.sends + 1, sinceSend := 0,
                                 deadline := some (s.timer, s.params.noticeRetry) }) } := by
  simp only [State.resend, State.placeNotice, State.ownFrame, State.noticeBody_length]
  rfl

theorem State.resends_eq_self {l : List NoticeKind} {s : State} (stay : ∀ j ∈ l, s.resendOf j = s) :
    l.foldl State.resendOf s = s := by
  induction l with
  | nil => rfl
  | cons j l ih =>
    obtain ⟨head, tail⟩ := List.forall_mem_cons.1 stay
    rw [List.foldl_cons, head, ih tail]

theorem State.resends_slot_of_not_mem {l : List NoticeKind} {k : NoticeKind} (other : k ∉ l) (s : State) :
    (l.foldl State.resendOf s).slot k = s.slot k := by
  induction l generalizing s with
  | nil => rfl
  | cons j l ih =>
    have tail : k ∉ l := fun mem => other (List.mem_cons_of_mem j mem)
    exact (ih tail (s.resendOf j)).trans (s.resendOf_slot (List.ne_of_not_mem_cons other))

/-- A resend that is placed takes a place of the own output queue. -/
theorem State.own_lt_resendOf {s : State} {k : NoticeKind} (waits : (s.slot k).resendWaits = true)
    (place : s.resendPlace k = true) : s.own.length < (s.resendOf k).own.length := by
  obtain ⟨n, hn, deadline⟩ := (Slot.resendWaits_iff _).1 waits
  rw [State.resendOf_place hn deadline place]
  simp [State.resend]

/-- Where one of the waiting resends may have a place, one of them takes one. -/
theorem State.own_lt_resends {l : List NoticeKind} {s : State} {k : NoticeKind} (turn : k ∈ l)
    (waits : (s.slot k).resendWaits = true) (place : s.resendPlace k = true) :
    s.own.length < (l.foldl State.resendOf s).own.length := by
  induction l with
  | nil => cases turn
  | cons j l ih =>
    rw [List.foldl_cons]
    by_cases goes : (s.slot j).resendWaits = true ∧ s.resendPlace j = true
    · exact Nat.lt_of_lt_of_le (State.own_lt_resendOf goes.1 goes.2) (State.resends_own l _)
    · have stays : s.resendOf j = s :=
        State.resendOf_stay fun waits => Bool.eq_false_iff.2 fun place => goes ⟨waits, place⟩
      rw [stays]
      refine ih ((List.mem_cons.1 turn).resolve_left ?_)
      rintro rfl
      exact goes ⟨waits, place⟩

/-- A resend that still waits after its turn may take no place. -/
theorem State.resends_no_place {l : List NoticeKind} {s : State} {k : NoticeKind} (turn : k ∈ l)
    (waits : ((l.foldl State.resendOf s).slot k).resendWaits = true) :
    (l.foldl State.resendOf s).resendPlace k = false := by
  rw [Bool.eq_false_iff]
  intro place
  induction l generalizing s with
  | nil => cases turn
  | cons j l ih =>
    rcases List.mem_cons.1 turn with rfl | later
    · obtain ⟨n, hn, deadline⟩ := (Slot.resendWaits_iff _).1 (State.resends_waits waits)
      have still : ((s.resendOf k).slot k).resendWaits = true := State.resends_waits (l := l) waits
      rw [State.resendOf_place hn deadline (State.resendPlace_of_resends (l := k :: l) place), State.resend,
        State.setSlot_slot] at still
      cases still
    · exact ih later waits place

/-- The resends' turns leave nothing to a second round. -/
theorem State.resendWaiting_resendWaiting (s : State) : s.resendWaiting.resendWaiting = s.resendWaiting :=
  State.resends_eq_self fun _ turn => State.resendOf_stay (State.resends_no_place turn)

/-- NOTICE_RESEND is the end of the event: the engine, the first send and the resends are its own beginning (log
entries 2 and 4). -/
theorem exec_noticeResend {s : State} (running : s.resetAsserted = false) : exec .noticeResend s = .next s.settle := by
  have effect : exec .noticeResend s = .next s.engine.sendFirst.resendWaiting.settle :=
    State.event_of_released (fun s => s.engine.sendFirst.resendWaiting) running
  rw [effect, s.settle_resend]
  exact congrArg _ s.engine.sendFirst.resendWaiting_resendWaiting

/-! ### One kind's turn -/

/-- The kinds whose turn comes before a kind's. -/
def kindsAbove (k : NoticeKind) : List NoticeKind := noticeKinds.filter (fun j => higher j k)

/-- The kinds whose turn comes after a kind's. -/
def kindsBelow (k : NoticeKind) : List NoticeKind := noticeKinds.filter (fun j => higher k j)

theorem mem_kindsAbove {j k : NoticeKind} : j ∈ kindsAbove k ↔ (noticeCode k).val < (noticeCode j).val := by
  simp [kindsAbove, mem_noticeKinds, higher]

theorem not_mem_kindsBelow (k : NoticeKind) : k ∉ kindsBelow k := by simp [kindsBelow, higher]

theorem noticeKinds_split (k : NoticeKind) : noticeKinds = kindsAbove k ++ k :: kindsBelow k := by
  cases k <;> rfl

/-- The state in which a kind's turn comes. -/
def State.atTurn (s : State) (k : NoticeKind) : State := (kindsAbove k).foldl State.resendOf s

theorem State.resendWaiting_eq_turns (s : State) (k : NoticeKind) :
    s.resendWaiting = (kindsBelow k).foldl State.resendOf ((s.atTurn k).resendOf k) := by
  rw [State.resendWaiting, noticeKinds_split k, List.foldl_append]
  rfl

/-- Without a place when its turn comes a slot stays. -/
theorem State.resendWaiting_slot_of_no_place {s : State} {k : NoticeKind} (held : (s.atTurn k).resendPlace k = false) :
    s.resendWaiting.slot k = s.slot k := by
  have above : k ∉ kindsAbove k := fun mem => Nat.lt_irrefl _ (mem_kindsAbove.1 mem)
  rw [s.resendWaiting_eq_turns k, State.resends_slot_of_not_mem (not_mem_kindsBelow k),
    State.resendOf_stay fun _ => held]
  exact State.resends_slot_of_not_mem above s

section
variable {s : State} {k : NoticeKind}
variable (highest : ∀ j, (noticeCode k).val < (noticeCode j).val → (s.slot j).resendWaits = false)
include highest

/-- With no higher resend waiting, a kind's turn is the first one. -/
theorem State.atTurn_of_highest : s.atTurn k = s := by
  refine State.resends_eq_self fun j above => State.resendOf_stay fun waits => ?_
  rw [highest j (mem_kindsAbove.1 above)] at waits
  cases waits

/-- The highest waiting resend made first leaves the others their turns. -/
theorem State.resendWaiting_of_highest (goes : ((s.resendOf k).slot k).resendWaits = false) :
    (s.resendOf k).resendWaiting = s.resendWaiting := by
  have still : ∀ j, (noticeCode k).val < (noticeCode j).val → ((s.resendOf k).slot j).resendWaits = false := by
    intro j above
    rw [s.resendOf_slot (ne_of_apply_ne (fun i => (noticeCode i).val) (Nat.ne_of_gt above))]
    exact highest j above
  rw [(s.resendOf k).resendWaiting_eq_turns k, s.resendWaiting_eq_turns k, State.atTurn_of_highest still,
    State.atTurn_of_highest highest, State.resendOf_stay (s := s.resendOf k) (k := k)]
  rw [goes]
  exact nofun

end

/-! ### The end of the event for one waiting resend (R182, R183) -/

section
variable {s : State} {k : NoticeKind} {n : OutNotice} (waits : s.readyHead = none)
include waits

/-- The highest waiting resend, with no first send before it, is what the event's end begins with. -/
theorem State.settle_resendOf (unsendable : s.sendable = none)
    (highest : ∀ j, (noticeCode k).val < (noticeCode j).val → (s.slot j).resendWaits = false)
    (goes : ((s.resendOf k).slot k).resendWaits = false) : (s.resendOf k).settle = s.settle := by
  obtain ⟨own, slots, e⟩ := s.resendOf_frame k
  have grows := s.resendOf_own k
  have waits' : (s.resendOf k).readyHead = none := by
    rw [e] at grows ⊢
    exact State.readyHead_none_of_own own slots s.noticeSeq waits grows
  have unsendable' : (s.resendOf k).sendable = none := by
    rw [Option.eq_none_iff_forall_ne_some] at unsendable ⊢
    intro j hj
    have params : (s.resendOf k).params = s.params := by rw [e]
    rw [State.sendable_eq_some, params] at hj
    simp only [State.resendOf_slot_kind] at hj
    exact unsendable j ((s.sendable_eq_some j).2 hj)
  rw [State.settle_of_none waits', State.settle_of_none waits, State.placeNotices, State.placeNotices,
    State.sendFirst_of_none unsendable', State.sendFirst_of_none unsendable, State.resendWaiting_of_highest highest goes]

/-- A slot with no place left after what goes before it stays. -/
theorem State.settle_slot_of_no_place (outstanding : s.slot k = .outstanding n)
    (held : (s.sendFirst.atTurn k).resendPlace k = false) : s.settle.slot k = s.slot k := by
  rw [State.settle_of_none waits, State.placeNotices, State.resendWaiting_slot_of_no_place held,
    State.sendFirst_slot outstanding, outstanding]

end

/-- What keeps a resend from a place at the event's end still does when its turn comes. -/
theorem State.resendPlace_of_atTurn {s : State} {k : NoticeKind}
    (place : (s.sendFirst.atTurn k).resendPlace k = true) : s.resendPlace k = true :=
  State.resendPlace_of_sendFirst (State.resendPlace_of_resends place)

/-- A sendable slot with a place free takes it (R181). -/
theorem State.own_lt_sendFirst {s : State} (sendable : s.sendable ≠ none) (place : s.own.length < 6) :
    s.own.length < s.sendFirst.own.length := by
  obtain ⟨j, hj⟩ := Option.ne_none_iff_exists'.1 sendable
  obtain ⟨occ, d, pending⟩ := (Slot.isPending_iff _).1 ((s.sendable_eq_some j).1 hj).1
  rw [State.sendFirst_of_place hj pending (s.ownPlace_iff.2 place)]
  simp

/-- The last place goes to a first send, or else to a higher waiting resend (R182). -/
theorem State.no_place_of_last {s : State} {k : NoticeKind} (last : s.own.length = 5)
    (before : s.sendable ≠ none ∨ ∃ j, (noticeCode k).val < (noticeCode j).val ∧ (s.slot j).resendWaits = true) :
    (s.sendFirst.atTurn k).resendPlace k = false := by
  rw [Bool.eq_false_iff]
  intro place
  obtain ⟨-, free, -⟩ := (State.resendPlace_iff _ k).1 place
  have grows : s.sendFirst.own.length ≤ (s.sendFirst.atTurn k).own.length := State.resends_own _ _
  by_cases sendable : s.sendable = none
  · obtain ⟨j, above, waits⟩ := before.resolve_left (absurd sendable)
    have taken := State.own_lt_resends (mem_kindsAbove.2 above) waits
      (State.resendPlace_of_lower above (State.resendPlace_of_atTurn place))
    rw [State.sendFirst_of_none sendable, State.atTurn] at free
    omega
  · have taken := State.own_lt_sendFirst sendable (by omega)
    omega

/-- Settles O32: the deadline by the sends made, and the waiting resend by what goes before its turn. -/
theorem resendOrAbandon : Obligations.ResendOrAbandon := by
  intro s k n running outstanding resent higherDue higherWaits
  refine ⟨fun start interval deadline => ⟨fun early => ?early, fun reached => ⟨fun spent => ?spent, fun left => ?due⟩⟩,
    fun due waits => ⟨fun dest place unsendable highest calm => ?resent, fun held => ?held⟩, exec_noticeResend running⟩
  case early => rw [exec_noticeRetryDeadline running, State.retryDeadline_of_early outstanding deadline early]
  case spent =>
    rw [exec_noticeRetryDeadline running, State.retryDeadline_of_spent outstanding deadline reached spent]
    rfl
  case due =>
    rw [exec_noticeRetryDeadline running, State.retryDeadline_of_due outstanding deadline reached left]
    rfl
  case resent =>
    have made : s.resendOf k = s.resend k n :=
      State.resendOf_place outstanding due ((s.resendPlace_iff k).2 ⟨dest, place, calm⟩)
    have first : ∀ j, (noticeCode k).val < (noticeCode j).val → (s.slot j).resendWaits = false :=
      fun j above => Bool.eq_false_iff.2 fun waits => highest ⟨j, above, waits⟩
    have goes : ((s.resendOf k).slot k).resendWaits = false := by
      rw [made, State.resend, State.setSlot_slot]
      rfl
    have ends : s.settle = resent.settle := by
      rw [← State.settle_resendOf waits unsendable first goes, made, s.resend_eq]
    exact ⟨ends, (exec_noticeResend running).trans (congrArg _ ends)⟩
  case held =>
    refine State.settle_slot_of_no_place waits outstanding ?_
    have blocked : ¬ s.resendPlace k = true → (s.sendFirst.atTurn k).resendPlace k = false :=
      fun no => Bool.eq_false_iff.2 (mt State.resendPlace_of_atTurn no)
    rw [s.resendPlace_iff] at blocked
    rcases held with unset | full | behind | ⟨last, before⟩
    · exact blocked fun ⟨dest, _⟩ => dest unset
    · exact blocked fun ⟨_, free, _⟩ => Nat.not_lt.2 full free
    · exact blocked fun ⟨_, _, calm⟩ => calm behind
    · exact State.no_place_of_last last before

end Sys2Proof.Machine
end

section
/-! NOTICE ACK (R184). -/

namespace Sys2Proof.Machine

/-! ### The kind of a code (R176) -/

theorem noticeKindOf_noticeCode (k : NoticeKind) : noticeKindOf (oct (noticeCode k)) = some k := by cases k <;> rfl

theorem noticeKindOf_eq_none {code : Byte} (beyond : 7 < code.toNat) : noticeKindOf code = none := by
  refine List.find?_eq_none.2 fun k _ => ?_
  rw [decide_eq_true_iff]
  rintro rfl
  cases k <;> exact absurd beyond (by decide)

/-! ### The acknowledgement -/

section
variable {s : State} {k : NoticeKind} {n : OutNotice} {seq : Byte}

theorem State.ackNotice_of_idle (idle : s.slot k = .idle) :
    s.ackNotice k seq = (s, ⟨.notOutstanding, [oct (noticeCode k), 0]⟩) := by
  rw [State.ackNotice, idle]
  rfl

theorem State.ackNotice_of_pending {occ : Nat} {d : Detail} (pending : s.slot k = .pending occ d) :
    s.ackNotice k seq = (s, ⟨.notOutstanding, [oct (noticeCode k), 1]⟩) := by
  rw [State.ackNotice, pending]
  rfl

variable (outstanding : s.slot k = .outstanding n)
include outstanding

theorem State.ackNotice_of_other (other : n.seq ≠ seq) :
    s.ackNotice k seq = (s, ⟨.notOutstanding, [oct (noticeCode k), 2, n.seq]⟩) := by
  rw [State.ackNotice, outstanding]
  exact if_neg other

theorem State.ackNotice_of_named (named : n.seq = seq) :
    s.ackNotice k seq = (s.setSlot k n.acked, .ok (ackData k n.acked)) := by
  rw [State.ackNotice, outstanding]
  exact if_pos named

end

/-- The slot closes, or opens again with what was raised since its send (R184). -/
theorem OutNotice.acked_of_none {n : OutNotice} (quiet : n.sinceSend = 0) : n.acked = .idle :=
  if_neg (Nat.not_lt.2 (Nat.le_of_eq quiet))

theorem OutNotice.acked_of_some {n : OutNotice} (raised : 0 < n.sinceSend) :
    n.acked = .pending n.sinceSend n.detail := if_pos raised

section
variable {s : State} {r : Request} {code seq : Byte} {rest : List Byte}
variable (operands : r.operands = code :: seq :: rest) (authorized : s.authorized r.source = true)
include operands authorized

/-- With authority the kind operand decides (R138, R184). -/
theorem State.runNoticeAck_of_kind {k : NoticeKind} (kind : noticeKindOf code = some k) :
    State.runNoticeAck r s = s.ackNotice k seq := by
  rw [State.runNoticeAck, operands]
  simp only [kind]
  exact if_pos authorized

theorem State.runNoticeAck_of_no_kind (unknown : noticeKindOf code = none) :
    State.runNoticeAck r s = (s, ⟨.badOperand, []⟩) := by
  rw [State.runNoticeAck, operands]
  simp only [unknown]
  exact if_pos authorized

end

/-- Settles O47, by the kind operand, then by the state of its slot. -/
theorem noticeAckClosesSlot : Obligations.NoticeAckClosesSlot := by
  intro s r code seq rest served authorized
  refine ⟨fun beyond => ?beyond, fun k named => ?named⟩
  case beyond =>
    exact served.answers (c := .noticeAck)
      (State.runNoticeAck_of_no_kind served.operands authorized (noticeKindOf_eq_none beyond))
  case named =>
    obtain rfl : code = oct (noticeCode k) := by rw [oct, ← named, BitVec.ofNat_toNat, BitVec.setWidth_eq]
    have run := State.runNoticeAck_of_kind served.operands authorized (noticeKindOf_noticeCode k)
    have answers : ∀ {t : State} {a : Answer}, s.ackNotice k seq = (t, a) →
        exec .noticeAck s = .next (t.reply r a).settle :=
      fun ack => served.answers (c := .noticeAck) (run.trans ack)
    refine ⟨fun idle => answers (State.ackNotice_of_idle idle),
      fun _ _ pending => answers (State.ackNotice_of_pending pending), fun n outstanding =>
        ⟨fun other => answers (State.ackNotice_of_other outstanding other), fun named quiet => ?_,
          fun named raised => ?_⟩⟩
    · have ack := State.ackNotice_of_named outstanding named
      rw [OutNotice.acked_of_none quiet] at ack
      exact answers ack
    · have ack := State.ackNotice_of_named outstanding named
      rw [OutNotice.acked_of_some raised] at ack
      exact answers ack

end Sys2Proof.Machine
end
